-- ==== Sys2Proof/Word.lean ====
section
/-! DEFINITION. The words of the FC-32: bytes, the 16-bit check, the 48-bit position and the station set. -/

namespace Sys2Proof

/-- A byte of a frame (R153). -/
abbrev Byte := BitVec 8

/-- A 16-bit check or signature (R49, R153). -/
abbrev Check := BitVec 16

/-- A position inside the part: nanometres, 48-bit unsigned (conventions of 00_scope.md, R23). -/
abbrev Position := BitVec 48

/-- A membership over the 64 station numbers; station `n` is in the set when bit `n` is 1 (R165). -/
abbrev StationSet := BitVec 64

end Sys2Proof
end

