-- ==== Sys2Proof/Syntax.lean ====
section
/-! DEFINITION. The commands of the FC-32, one constructor per row of spec/opcode_table.json, with the operands
each command carries (log 11). -/

namespace Sys2Proof

/-- The fields every received frame carries before its payload (R153); the check has passed. -/
structure Hdr where
  sender : Nat
  addressee : Nat
  seq : Byte
  deriving DecidableEq, Repr

/-- Direction of travel: UP is toward larger positions. -/
inductive Dir where
  | up | down
  deriving DecidableEq, Repr

/-- Response class of a configurable condition (R137). -/
inductive RespClass where
  | latch | recover | note | off
  deriving DecidableEq, Repr

/-- The value a SETUP carries: a number, a home direction or a response class (R167, log 34). -/
inductive SetupValue where
  | num (n : Nat)
  | dir (d : Dir)
  | cls (c : RespClass)
  deriving DecidableEq, Repr

/-- The group part of a CUELOAD payload; `none` is a field the payload is too short to hold (R55). -/
structure GroupLoad where
  number : Option Nat
  skew : Option Nat
  nMembers : Option Nat
  members : List Nat
  deriving DecidableEq, Repr

/-- The follow part of a CUELOAD payload (R55). -/
structure FollowLoad where
  station : Option Nat
  cue : Option Nat
  mark : Option Nat
  delay : Option Nat
  deriving DecidableEq, Repr

/-- The payload of a CUELOAD (R55). A missing field is `none`, a landing flag that is neither yes nor no is
`none`, and `lengthAgrees` is false where the payload carries bytes beyond the fields it declares or lacks the
byte that says whether a part is present (log 34). -/
structure CueLoad where
  number : Option Nat
  target : Option Int
  vmax : Option Nat
  accel : Option Nat
  decel : Option Nat
  hold : Option Nat
  landing : Option Bool
  nMarks : Option Nat
  marks : List Int
  group : Option GroupLoad
  follow : Option FollowLoad
  lengthAgrees : Bool
  deriving DecidableEq, Repr

/-- The form of a CUEASK (R59). -/
inductive AskForm where
  | exact | fromNumber
  deriving DecidableEq, Repr

/-- A transition on ENC_A and ENC_B (R122). -/
inductive QuadStep where
  | aLeads | bLeads | both
  deriving DecidableEq, Repr

/-- The two ultimate-limit switches (R141). -/
inductive LimitSwitch where
  | ultUp | ultDown
  deriving DecidableEq, Repr

/-- The commands: the operations and events of the part. -/
inductive Instr where
  | powerOn
  | supplyDip
  | resetPin
  | powerOnSequence (straps : BitVec 6)
  | statusFrame (h : Hdr) (payload : List Byte)
  | markFrame (h : Hdr) (cue mark : Nat)
  | standby (h : Hdr) (cue : Nat) (set : StationSet) (window : Nat)
  | go (h : Hdr) (cue : Nat)
  | cancel (h : Hdr) (cue : Nat) (set : StationSet)
  | stop (h : Hdr) (set : StationSet)
  | enable (h : Hdr) (set : StationSet) (override : Nat) (count : Byte)
  | clear (h : Hdr) (set : StationSet)
  | home (h : Hdr)
  | cueload (h : Hdr) (req : CueLoad)
  | cuedrop (h : Hdr) (cue : Nat)
  | cueask (h : Hdr) (cue : Nat) (form : AskForm)
  | save (h : Hdr)
  | saveComplete
  | setup (h : Hdr) (ident : Nat) (value : SetupValue) (maintKey : Bool)
  | setupWriteComplete
  | linereset (h : Hdr) (set : StationSet)
  | frameDiscarded (raw : List Byte)
  | estopLoopOpen
  | estopLoopClosed
  | driveReadyAsserted
  | driveReadyLost
  | driveFaultAsserted
  | driveFaultDeasserted
  | ultimateOpen (sw : LimitSwitch)
  | ultimateClosed
  | brakeFbReleased
  | brakeFbSet
  | homeSwEdge (active : Bool)
  | encoderStep (step : QuadStep)
  | profilePeriod
  | pwmBoundary
  | loadConversionComplete (raw : BitVec 12)
  | peerAgeing
  | wakeTimeout
  | brakeReleaseTimeout
  | brakeSetTimeout
  | holdToBrakeExpiry
  | restTimerExpiry
  | lapseTimerExpiry
  | windowExpiry (cue : Nat)
  | followDelayExpiry (cue : Nat)
  | holdLimitExceeded
  | recoveryWaitExceeded
  | dwellExpiry
  | statusTimerExpiry
  | transmitAttempt
  | frameSent
  | attemptFailed
  deriving DecidableEq, Repr

end Sys2Proof
end

