-- ==== Sys2Proof/Config.lean ====
section
/-! DEFINITION. The values the spec leaves open. Each is a constant with no body, so a statement about it
holds whatever the part does there. -/

namespace Sys2Proof.Config

/-- What the 48-bit set-point (or stop point) holds when the exact value lies outside 0 to 2^48 - 1 nm.
R23 gives the range and states no value there. Free value (log 9). -/
opaque positionBeyond : Int → Position

/-- What a four-byte word of a STATUS payload holds when its value does not fit. R165 gives the width only.
Free value (log 10). -/
opaque statusWordBeyond : Int → BitVec 32

/-- What a two-byte field of a STATUS payload holds when its value does not fit. Free value (log 10). -/
opaque statusHalfBeyond : Nat → BitVec 16

/-- What the two detail bytes of a REPLY hold when the detail does not fit: the identifier of a SETUP, whose width no rule
gives. Free value (log 64). -/
opaque replyDetailBeyond : Nat → BitVec 16

/-- Which block a reset during a SETUP write leaves: the new one (`true`) or the old one. R169 says that it is
one of the two. Applied to the model's count of open choices. Free value (log 8). -/
opaque setupWriteKept : Nat → Bool

/-- What MAINT_KEY reads when a SETUP that has waited is acted on. R169 reads it at that moment, and no command carries
a turn of the key. Applied to the model's count of open choices. Free value (log 62). -/
opaque maintKey : Nat → Bool

/-- Which rule the guard follows for a cue that started outside a widened own band and has come exactly to its end with
the band between it and its target: R117 and 7.8 hold it there (`true`), R115 counts the end as inside and lets it escape
(`false`). The spec states both. Free value (log 50). -/
opaque edgeHolds : Bool

end Sys2Proof.Config
end

