-- ==== Sys2Proof/Machine/State.lean ====
section
/-! DEFINITION. The state of the FC-32 as plain data, block by block, and its values with a power-on reset
applied. Each block is one structure; a field's docstring names the rule that gives it. -/

namespace Sys2Proof.Machine

/-! ## Names -/

/-- The thirteen axis states (1.1, R1). -/
inductive AxisState where
  | unaddressed | rest | waking | parked | releasing | moving | held | suspended | stopping | setting | recovering
  | homing | tripped
  deriving DecidableEq, Repr

/-- The start request (R1). -/
inductive StartRequest where
  | none | cue | home | recover
  deriving DecidableEq, Repr

/-- The setting destination (R1). -/
inductive SetDest where
  | parked | suspended | recovering | tripped
  deriving DecidableEq, Repr

/-- The stop kind (R1). -/
inductive StopKind where
  | controlled | fast
  deriving DecidableEq, Repr

/-- The phase of a cue context (R70). -/
inductive CuePhase where
  | starting | running | ending
  deriving DecidableEq, Repr

/-- The fourteen conditions, in the order of their codes (R137). -/
inductive Condition where
  | overspeed | following | overload | slack | loadSensor | encoder | ultimate | brakeRelease | brakeSet | driveFault
  | driveReady | homeMiss | estop | setupBad
  deriving DecidableEq, Repr

/-- Every condition, in ascending order of code (R137). -/
def allConditions : List Condition :=
  [.overspeed, .following, .overload, .slack, .loadSensor, .encoder, .ultimate, .brakeRelease, .brakeSet, .driveFault,
    .driveReady, .homeMiss, .estop, .setupBad]

/-- The outcomes of a cue (R73). -/
inductive CueOutcome where
  | arrived | landed | abandoned | holdLimit | peerLost | groupBroken
  | fault (c : Condition)
  | estop | lineReset
  deriving DecidableEq, Repr

/-- Reasons for a disarming (R63). -/
inductive DisarmReason where
  | window | cancel | chainBroken | tripped | lineReset
  deriving DecidableEq, Repr

/-- Reasons for a refused arming or start (R62, R67, R76). -/
inductive RefuseReason where
  | tripped | noCue | runningSame | notHomed | armFull | peersFull | notArmed | busy | noEnable | groupNotReady
  | sigMismatch
  deriving DecidableEq, Repr

/-- How a homing move ended (R129). -/
inductive HomingResult where
  | homed | homeAborted | homeMiss
  deriving DecidableEq, Repr

/-- An event of cue control (R78). A homing event has cue number 0. -/
inductive CueEvent where
  | armed (cue : Nat)
  | disarmed (cue : Nat) (reason : DisarmReason)
  | refused (cue : Nat) (reason : RefuseReason)
  | started (cue : Nat)
  | ended (cue : Nat) (outcome : CueOutcome) (remaining : Nat)
  | homingEnded (result : HomingResult)
  deriving DecidableEq, Repr

/-- The cause of a reset (R171). -/
inductive ResetCause where
  | powerOn | supplyDip | resetPin
  deriving DecidableEq, Repr

/-- The reset cause an ANNOUNCE carries (R172). -/
inductive AnnounceCause where
  | reset (c : ResetCause)
  | lineReset
  deriving DecidableEq, Repr

/-! ## Winch inputs -/

/-- The levels of the inputs the part watches. They come from outside, and no reset changes them (log 5). -/
structure Inputs where
  /-- DRIVE_READY asserted (R7, R142). -/
  driveReady : Bool
  /-- DRIVE_FAULT asserted (R141). -/
  driveFault : Bool
  /-- BRAKE_FB reads released (R9, R16). -/
  brakeReleased : Bool
  /-- ULT_UP reads open (R141). -/
  ultUpOpen : Bool
  /-- ULT_DOWN reads open (R141). -/
  ultDownOpen : Bool
  /-- The emergency-stop loop is open (R17). -/
  loopOpen : Bool
  /-- HOME_SW active (R126). -/
  homeSw : Bool
  /-- ENC_A high (R122, log 40). -/
  encA : Bool
  /-- ENC_B high (R122, log 40). -/
  encB : Bool
  /-- What MAINT_KEY read when the part last read it (R169, log 62). -/
  maintKey : Bool
  deriving DecidableEq, Repr

/-! ## Axis sequencer -/

/-- The state of the axis sequencer (R1). A timer is `none` when stopped, else the ms remaining. -/
structure Sequencer where
  axis : AxisState
  startReq : StartRequest
  dest : SetDest
  stopKind : StopKind
  wake : Option Nat
  brake : Option Nat
  hold : Option Nat
  rest : Option Nat
  deriving DecidableEq, Repr

/-! ## Cue records -/

/-- The group part of a record (R47). -/
structure GroupPart where
  number : Nat
  skew : Nat
  members : List Nat
  deriving DecidableEq, Repr

/-- The follow part of a record (R48). -/
structure FollowPart where
  station : Nat
  cue : Nat
  mark : Nat
  delay : Nat
  deriving DecidableEq, Repr

/-- The fields of a cue record that the cue store keeps (R45, R170). -/
structure CueDef where
  number : Nat
  target : Nat
  vmax : Nat
  accel : Nat
  decel : Nat
  hold : Nat
  landing : Bool
  marks : List Nat
  group : Option GroupPart
  follow : Option FollowPart
  deriving DecidableEq, Repr

/-- A record of the RAM table: its fields and its signature (R45, R49). -/
structure CueRecord where
  cue : CueDef
  sig : Check
  deriving DecidableEq, Repr

/-! ## Profile generator -/

/-- The move inputs of a cue, fixed at the completion of its release (R25). Positions in nm, rates in µm/s per
period. -/
structure MoveInputs where
  s0 : Nat
  target : Nat
  dir : Dir
  total : Nat
  vmax : Nat
  accel : Nat
  decel : Nat
  deriving DecidableEq, Repr

/-- The homing phase (R37). -/
inductive HomingPhase where
  | search | stop
  deriving DecidableEq, Repr

/-- The homing inputs (R37). `h0` is signed: the referencing may move it below the stage (R38). -/
structure HomingInputs where
  dir : Dir
  h0 : Int
  vmax : Nat
  accel : Nat
  travel : Nat
  phase : HomingPhase
  deriving DecidableEq, Repr

/-- The values the generator holds for the line port between its periods (R44). -/
structure Published where
  setPoint : Nat
  velocity : Int
  stopPoint : Nat
  deriving DecidableEq, Repr

/-- The state of the profile generator (R23). The move inputs stand in the cue context, which they live and die
with (R25, R69). -/
structure Generator where
  /-- Set-point position s. -/
  s : Position
  /-- Set-point velocity v, a magnitude. -/
  v : Nat
  /-- Stop point (R40). -/
  stopPoint : Position
  /-- Progress (R39). -/
  progress : Nat
  /-- Fired-marks set, ascending indices (R41). -/
  fired : List Nat
  /-- Overrun latch (R31). -/
  overrun : Bool
  /-- Homing inputs and phase (R37). -/
  homing : Option HomingInputs
  /-- Published values (R44). -/
  pub : Published
  deriving DecidableEq, Repr

/-! ## Measurement -/

/-- The home-switch capture register (R126). -/
inductive Capture where
  | disarmed | armed
  | held (count : BitVec 32)
  deriving DecidableEq, Repr

/-- The state of the measurement block (R136). -/
structure Measure where
  /-- Encoder count, signed 32-bit (R122). -/
  count : BitVec 32
  /-- The count latched in the latest period, `none` before the first (R123). -/
  latched : Option (BitVec 32)
  /-- Measured position of the latest period, nm (R123). -/
  measured : Position
  /-- Count change of the latest period (R123). -/
  change : Int
  /-- Measured displacement of the latest period, nm (R123). -/
  displacement : Int
  /-- Offset, signed nm (R124). -/
  offset : Int
  /-- Position reference: REFERENCED (R124). -/
  referenced : Bool
  /-- Capture register (R126). -/
  capture : Capture
  /-- A load conversion is in flight (R130). -/
  converting : Bool
  /-- Invalid run, 0 to 4 (R131). -/
  invalidRun : Nat
  /-- Window of valid loads, oldest first (R132). -/
  window : List Int
  /-- Filtered load, N (R132). -/
  filtered : Option Int
  /-- Pending duty (R134). -/
  pendingDuty : Nat
  /-- Active duty (R134). -/
  activeDuty : Nat
  deriving DecidableEq, Repr

/-! ## Cue control -/

/-- The trigger state of an armed follow cue (R61). -/
inductive Trigger where
  | waiting
  | delaying (remaining : Nat)
  | pending
  deriving DecidableEq, Repr

/-- An entry of the armed list (R61). `window` is `none` for no expiry; `trigger` is `none` for a cue without a
follow part. -/
structure ArmedCue where
  cue : Nat
  window : Option Nat
  trigger : Option Trigger
  deriving DecidableEq, Repr

/-- A member view (R94). -/
inductive MemberView where
  | armed | cue | finished
  deriving DecidableEq, Repr

/-- The cue context (R69), with its group part (R94). -/
structure CueContext where
  record : CueRecord
  /-- s0, direction, M and the rates; absent until the release completes (R25). -/
  move : Option MoveInputs
  phase : CuePhase
  /-- Hold time, ms (R71). -/
  holdTime : Nat
  /-- Recoveries used (R145). -/
  recoveries : Nat
  /-- End reason (R74). -/
  endReason : Option CueOutcome
  /-- Member views, in member-list order (R94). -/
  views : List (Nat × MemberView)
  /-- Stale report (R101). -/
  staleReport : Bool
  /-- PACED_STALE (R101). -/
  pacedStale : Bool
  deriving DecidableEq, Repr

/-- What has happened to a homing request from its acceptance until its end is recorded (R129, log 25). -/
structure HomingRun where
  aborted : Bool
  missed : Bool
  referenced : Bool
  deriving DecidableEq, Repr

/-- The state of cue control (R61, R65, R69, R78). -/
structure CueControl where
  /-- Armed list, oldest first (R61). -/
  armed : List ArmedCue
  /-- Enable freshness (R65). -/
  enableFresh : Bool
  /-- Lapse timer (R65). -/
  lapse : Option Nat
  /-- Override, percent (R65). -/
  override : Nat
  /-- Enable count (R65). -/
  enableCount : Byte
  /-- The cue context (R69). -/
  ctx : Option CueContext
  /-- Last-event record (R78). -/
  lastEvent : Option CueEvent
  /-- A homing request pending or running (R129). -/
  homing : Option HomingRun
  deriving DecidableEq, Repr

/-! ## Peer table -/

/-- Freshness of a peer entry (R82). -/
inductive Freshness where
  | unheard | fresh | stale | lost
  deriving DecidableEq, Repr

/-- The kept fields of a STATUS (R83). Positions in µm. -/
structure PeerContents where
  axis : AxisState
  cue : Nat
  phase : Option CuePhase
  progress : Nat
  setPoint : Nat
  measured : Nat
  stopPoint : Nat
  armed : List (Nat × Check)
  deriving DecidableEq, Repr

/-- A cue holding: the cue number and the kinds it holds on the station (R84). -/
structure Holding where
  cue : Nat
  group : Bool
  follow : Bool
  deriving DecidableEq, Repr

/-- A peer entry (R82). The interest set is read from its holders (R84). -/
structure Peer where
  station : Nat
  clearance : Bool
  holdings : List Holding
  fresh : Freshness
  age : Nat
  contents : Option PeerContents
  deriving DecidableEq, Repr

/-! ## Clearance guard -/

/-- The results of the clearance guard (R110). `active` has one entry per rule of the live setup. The clear
verdict is read from it (R119). -/
structure ClearanceGuard where
  active : List Bool
  lower : Int
  upper : Int
  notice : Bool
  deriving DecidableEq, Repr

/-! ## Supervision -/

/-- The recovery record (R145 to R147). -/
structure Recovery where
  conds : List Condition
  dwell : Option Nat
  wait : Nat
  deriving DecidableEq, Repr

/-- The state of supervision (R137). The present and latched sets are lists in ascending order of code; the
response classes are fields of the live setup. -/
structure Supervision where
  present : List Condition
  latched : List Condition
  readySeen : Bool
  recovery : Option Recovery
  deriving DecidableEq, Repr

/-! ## Line port -/

/-- The fields of a STATUS (R161, R165). -/
structure Status where
  axis : AxisState
  referenced : Bool
  enableFresh : Bool
  overrun : Bool
  pacedStale : Bool
  markLost : Bool
  cue : Nat
  phase : Option CuePhase
  progress : Nat
  setPoint : Nat
  measured : Nat
  stopPoint : Nat
  velocity : Int
  filtered : Option Int
  override : Nat
  enableCount : Byte
  active : List Bool
  armed : List (Nat × Check)
  lastEvent : Option CueEvent
  faults : List (Condition × Bool × Bool)
  deriving DecidableEq, Repr

/-- The cue store state (R170). -/
inductive StoreState where
  | good | empty | bad
  deriving DecidableEq, Repr

/-- The fields of an ANNOUNCE (R172). -/
structure Announce where
  cause : AnnounceCause
  revision : BitVec 16
  cueCount : Nat
  store : StoreState
  deriving DecidableEq, Repr

/-- The result codes of a REPLY (R165). -/
inductive ReplyResult where
  | done | badField | tableFull | cueInUse | saving | noCue | notIdle | noEnable | homeBlocked | stillActive | notMaint
  | range
  deriving DecidableEq, Repr

/-- The addressed requests that are answered (R163). -/
inductive RequestKind where
  | clear | home | cueload | cuedrop | cueask | save | setup
  deriving DecidableEq, Repr

/-- A REPLY (R163). -/
structure Reply where
  addressee : Nat
  kind : RequestKind
  seq : Byte
  result : ReplyResult
  detail : Nat
  deriving DecidableEq, Repr

/-- The use of a cue number, as a CUEREPORT gives it (R59). -/
inductive CueUse where
  | idle | armed | running
  deriving DecidableEq, Repr

/-- A CUEREPORT (R59). -/
structure CueReport where
  addressee : Nat
  seq : Byte
  cue : Nat
  form : AskForm
  count : Nat
  found : Option (CueRecord × CueUse)
  deriving DecidableEq, Repr

/-- What an entry of the REPLY queue holds (R160). A reservation keeps the request it will answer. -/
inductive ReplyBody where
  | reply (r : Reply)
  | report (r : CueReport)
  | reservation (kind : RequestKind) (addressee : Nat) (seq : Byte)
  deriving DecidableEq, Repr

/-- A frame in a transmit store: its attempt count, the sequence count its first attempt took, its contents
(R154, R156). -/
structure Queued (α : Type) where
  attempts : Nat
  seq : Option Byte
  body : α
  deriving DecidableEq, Repr

/-- A mark handed to the port: cue number and mark index (R162). -/
structure MarkBody where
  cue : Nat
  mark : Nat
  deriving DecidableEq, Repr

/-- The store an attempt took its frame from; a REPLY by its place in the queue (R160). -/
inductive TxStore where
  | mark | status
  | reply (place : Nat)
  | announce
  deriving DecidableEq, Repr

/-- The contents of the frame on the line. -/
inductive TxBody where
  | mark (m : MarkBody)
  | status (s : Status)
  | reply (r : ReplyBody)
  | announce (a : Announce)
  deriving DecidableEq, Repr

/-- The attempt on the line (R155). `superseded` says that a newer frame has taken the slot meanwhile (log 29). -/
structure Attempt where
  store : TxStore
  seq : Byte
  attempts : Nat
  body : TxBody
  superseded : Bool
  deriving DecidableEq, Repr

/-- The state of the line port's transmit side (R154 to R163). -/
structure LinePort where
  /-- STATUS slot (R160). -/
  status : Option (Queued Status)
  /-- MARK queue, oldest first (R160). -/
  marks : List (Queued MarkBody)
  /-- REPLY queue, oldest first (R160). -/
  replies : List (Queued ReplyBody)
  /-- ANNOUNCE slot (R160). -/
  announce : Option (Queued Announce)
  /-- Sequence count (R154). -/
  seqCount : Byte
  /-- Status timer, ms (R161). -/
  timer : Option Nat
  /-- MARK_LOST (R162). -/
  markLost : Bool
  /-- The attempt on the line (R155). -/
  attempt : Option Attempt
  /-- The backoff drawn by the latest failure, in bit times, until the next attempt (R156). -/
  backoff : Option Nat
  /-- The model's own count of the changes of axis state that the command being carried out has made, each of which
  builds a STATUS (R161); they are built when it ends (log 12). It is 0 between commands. -/
  statusDue : Nat
  deriving DecidableEq, Repr

/-! ## Setup store and cue store -/

/-- A clearance rule of the setup (R109, R167). -/
structure ClearanceRule where
  peer : Nat
  peerLow : Nat
  peerHigh : Nat
  ownLow : Nat
  ownHigh : Nat
  margin : Nat
  deriving DecidableEq, Repr

/-- The setup fields (R167), in the order of their identifiers. Positions in mm, speeds in mm/s, times as the
table gives them. -/
structure Setup where
  nmPerCount : Nat
  softLow : Nat
  softHigh : Nat
  homePos : Nat
  homeDir : Dir
  homeSpeed : Nat
  homeAccel : Nat
  homeTravel : Nat
  axisVmax : Nat
  emergency : Nat
  followLimit : Nat
  encJump : Nat
  overload : Nat
  slack : Nat
  loadZero : Nat
  loadScale : Nat
  kp : Nat
  fullScale : Nat
  brakeTime : Nat
  wakeTimeout : Nat
  restCount : Nat
  holdToBrake : Nat
  dwell : Nat
  statusInterval : Nat
  staleLimit : Nat
  lostLimit : Nat
  enableLapse : Nat
  inPosition : Nat
  landingBand : Nat
  clsFollowing : RespClass
  clsOverload : RespClass
  clsSlack : RespClass
  clsLoadSensor : RespClass
  nRules : Nat
  rules : Vector ClearanceRule 8
  deriving DecidableEq, Repr

/-- The fields of a rule that nothing has written: 0 for every field (R167). -/
def ClearanceRule.default : ClearanceRule := ⟨0, 0, 0, 0, 0, 0⟩

/-- The default block (R167). -/
def Setup.default : Setup where
  nmPerCount := 5000
  softLow := 200
  softHigh := 39800
  homePos := 150
  homeDir := .down
  homeSpeed := 100
  homeAccel := 200
  homeTravel := 3000
  axisVmax := 1200
  emergency := 2000
  followLimit := 50
  encJump := 1000
  overload := 20000
  slack := 200
  loadZero := 0
  loadScale := 10
  kp := 20
  fullScale := 2000000
  brakeTime := 300
  wakeTimeout := 2000
  restCount := 12
  holdToBrake := 5
  dwell := 2000
  statusInterval := 20
  staleLimit := 60
  lostLimit := 500
  enableLapse := 200
  inPosition := 1000
  landingBand := 50
  clsFollowing := .latch
  clsOverload := .latch
  clsSlack := .recover
  clsLoadSensor := .latch
  nRules := 0
  rules := Vector.replicate 8 ClearanceRule.default

/-- The setup block in nonvolatile memory: fields, revision and the 16-bit check over them (R167, R168). -/
structure NvSetup where
  image : Setup
  revision : BitVec 16
  check : Check
  deriving DecidableEq, Repr

/-- The cue store in nonvolatile memory: the mark of validity, the count of records, the records in ascending cue
number without their signatures, and the 16-bit check over count and records (R170). -/
structure NvCues where
  valid : Bool
  count : Nat
  records : List CueDef
  check : Check
  deriving DecidableEq, Repr

/-- A request to the setup store and cue store that arrived while a SETUP was being written (R159, R169, logs 33, 52). -/
inductive StoreRequest where
  | setup (h : Hdr) (ident : Nat) (value : SetupValue)
  | save (h : Hdr)
  deriving DecidableEq, Repr

/-- The state of the setup store and cue store (R167 to R170). -/
structure Stores where
  nvSetup : NvSetup
  /-- Stored image (R167). -/
  image : Setup
  /-- Setup revision (R167). -/
  revision : BitVec 16
  /-- Live setup (R167). -/
  live : Setup
  /-- A SETUP write is in progress (R169). -/
  writing : Bool
  /-- Requests waiting for it, oldest first (R159). -/
  waiting : List StoreRequest
  nvCues : NvCues
  /-- Cue store state (R170). -/
  cueState : StoreState
  /-- The table being written by the SAVE in flight (R170). -/
  saving : Option (List CueDef)
  deriving DecidableEq, Repr

/-! ## The whole state -/

/-- The state of the part and its queue of waiting commands. -/
structure State where
  /-- Commands waiting, first in first out. -/
  pending : List Instr
  /-- The cause of the reset that is applied, `none` once the power-on sequence has run (R171). -/
  held : Option ResetCause
  /-- The model's own: no millisecond has passed since that reset was applied, so that a reset applied now is applied at
  the same time as it (R171, log 7). -/
  resetNow : Bool
  /-- The number read from the straps (R166). -/
  station : Nat
  /-- The model's own count of open choices taken, read by `Config.setupWriteKept` and `Config.maintKey`
  (logs 8, 62). -/
  freeCount : Nat
  inp : Inputs
  seq : Sequencer
  gen : Generator
  meas : Measure
  ctl : CueControl
  /-- The RAM cue table, ascending cue number (R50). -/
  table : List CueRecord
  /-- The peer table, ascending station number (R81). -/
  peers : List Peer
  guard : ClearanceGuard
  sup : Supervision
  line : LinePort
  store : Stores
  deriving DecidableEq, Repr

/-- The part never stops: every command the spec gives has an effect, or is ignored, and a state in which it
cannot happen is left unchanged (log 2). No command raises a fault, so the type has no constructor (safe). -/
inductive Fault
  deriving DecidableEq, Repr

/-- Why a command has no meaning. -/
inductive Refusal where
  /-- Raised by a `Dispatch` arm whose meaning is not written yet. Safe: the model stops. -/
  | notModelled (mnemonic : String)
  deriving DecidableEq, Repr

/-! ## Updates, one per block -/

def State.onInp (s : State) (f : Inputs → Inputs) : State := { s with inp := f s.inp }
def State.onSeq (s : State) (f : Sequencer → Sequencer) : State := { s with seq := f s.seq }
def State.onGen (s : State) (f : Generator → Generator) : State := { s with gen := f s.gen }
def State.onMeas (s : State) (f : Measure → Measure) : State := { s with meas := f s.meas }
def State.onCtl (s : State) (f : CueControl → CueControl) : State := { s with ctl := f s.ctl }
def State.onTable (s : State) (f : List CueRecord → List CueRecord) : State := { s with table := f s.table }
def State.onPeers (s : State) (f : List Peer → List Peer) : State := { s with peers := f s.peers }
def State.onGuard (s : State) (f : ClearanceGuard → ClearanceGuard) : State := { s with guard := f s.guard }
def State.onSup (s : State) (f : Supervision → Supervision) : State := { s with sup := f s.sup }
def State.onLine (s : State) (f : LinePort → LinePort) : State := { s with line := f s.line }
def State.onStore (s : State) (f : Stores → Stores) : State := { s with store := f s.store }

/-! ## Reset -/

/-- The input levels the model starts from: drive not ready and without fault, brake set, limits and loop closed
(log 5). -/
def Inputs.initial : Inputs :=
  ⟨false, false, false, false, false, false, false, false, false, false⟩

/-- The sequencer with a reset applied: outputs off, start request NONE, timers stopped (R3, log 6). -/
def Sequencer.reset : Sequencer :=
  ⟨.rest, .none, .parked, .controlled, none, none, none, none⟩

/-- The generator with a reset applied (R23, log 6). -/
def Generator.reset : Generator :=
  ⟨0, 0, 0, 0, [], false, none, ⟨0, 0, 0⟩⟩

/-- The measurement block with a reset applied (R136, log 6). -/
def Measure.reset : Measure where
  count := 0
  latched := none
  measured := BitVec.ofNat 48 100000000000
  change := 0
  displacement := 0
  offset := 100000000000
  referenced := false
  capture := .disarmed
  converting := false
  invalidRun := 0
  window := []
  filtered := none
  pendingDuty := 2048
  activeDuty := 2048

/-- Cue control with a reset applied (R61, R65, R69, R78). -/
def CueControl.reset : CueControl :=
  ⟨[], false, none, 100, 0, none, none, none⟩

/-- The guard with a reset applied: no rules, the soft limits of the default block (log 6). -/
def ClearanceGuard.reset : ClearanceGuard :=
  ⟨[], 200000000, 39800000000, false⟩

/-- Supervision with a reset applied (R152). -/
def Supervision.reset : Supervision :=
  ⟨[], [], false, none⟩

/-- The line port with a reset applied (R154, R160, R162). -/
def LinePort.reset : LinePort where
  status := none
  marks := []
  replies := []
  announce := none
  seqCount := 0
  timer := none
  markLost := false
  attempt := none
  backoff := none
  statusDue := 0

/-- The stores before anything has written them: the default block, an empty cue store, each with the check that
`setupCheck` and `cueCheck` compute for it (R167, R168, R170, logs 4, 54). -/
def Stores.initial : Stores where
  nvSetup := ⟨Setup.default, 0, 0x0151⟩
  image := Setup.default
  revision := 0
  live := Setup.default
  writing := false
  waiting := []
  nvCues := ⟨true, 0, [], 0x800D⟩
  cueState := .empty
  saving := none

/-- The part with a power-on reset applied: every block at its reset values, the power-on sequence not yet run
(R171, log 3). -/
def State.reset : State where
  pending := []
  held := some .powerOn
  resetNow := true
  station := 0
  freeCount := 0
  inp := Inputs.initial
  seq := Sequencer.reset
  gen := Generator.reset
  meas := Measure.reset
  ctl := CueControl.reset
  table := []
  peers := []
  guard := ClearanceGuard.reset
  sup := Supervision.reset
  line := LinePort.reset
  store := Stores.initial

end Sys2Proof.Machine
end

