-- ==== Sys2Proof/Machine/Flags.lean ====
section
/-! DEFINITION. What the rules read out of the state: outputs, condition classes, uses, verdicts. -/

namespace Sys2Proof.Machine

/-! ## Conditions -/

/-- The code of a condition (R137). -/
def Condition.code : Condition → Nat
  | .overspeed => 1
  | .following => 2
  | .overload => 3
  | .slack => 4
  | .loadSensor => 5
  | .encoder => 6
  | .ultimate => 7
  | .brakeRelease => 8
  | .brakeSet => 9
  | .driveFault => 10
  | .driveReady => 11
  | .homeMiss => 12
  | .estop => 13
  | .setupBad => 14

/-- The DROP-category conditions (R18, R137). -/
def Condition.isDrop : Condition → Bool
  | .overspeed | .encoder | .ultimate | .driveFault | .driveReady => true
  | .following | .overload | .slack | .loadSensor | .brakeRelease | .brakeSet | .homeMiss | .estop | .setupBad => false

/-- The set of conditions, in ascending order of code, that satisfy `p`. -/
def conditionsWhere (p : Condition → Bool) : List Condition := allConditions.filter p

/-- A set of conditions with one joined to it. -/
def insertCondition (c : Condition) (l : List Condition) : List Condition :=
  conditionsWhere fun d => decide (d = c) || l.contains d

/-- A set of conditions with one removed from it. -/
def removeCondition (c : Condition) (l : List Condition) : List Condition := l.filter fun d => decide (d ≠ c)

/-- The response class of a condition under a setup: the four configurable ones from setup, LATCH for the others
(R137). -/
def classUnder (S : Setup) : Condition → RespClass
  | .following => S.clsFollowing
  | .overload => S.clsOverload
  | .slack => S.clsSlack
  | .loadSensor => S.clsLoadSensor
  | _ => .latch

/-- The response class in force: that of the live setup (R137). -/
def classOf (s : State) (c : Condition) : RespClass := classUnder s.store.live c

/-- A condition is latched. -/
def isLatched (s : State) (c : Condition) : Bool := s.sup.latched.contains c

/-- A condition is present. -/
def isPresent (s : State) (c : Condition) : Bool := s.sup.present.contains c

/-! ## Station -/

/-- The straps give an axis station (R166). -/
def axisStation (n : Nat) : Bool := decide (1 ≤ n) && decide (n ≤ 47)

/-- The part runs and has a station number, so that it takes and sends frames (R158, R166). -/
def addressed (s : State) : Bool := s.held.isNone && axisStation s.station

/-- Supervision and the measurement block run: from the state-entry step, except in UNADDRESSED (R123, R137). -/
def watched (s : State) : Bool := s.held.isNone && decide (s.seq.axis ≠ .unaddressed)

/-! ## Winch outputs -/

/-- BRAKE_REL by axis state (R2, Law 7). -/
def brakeRelIn : AxisState → Bool
  | .releasing | .moving | .held | .stopping | .homing => true
  | .unaddressed | .rest | .waking | .parked | .suspended | .setting | .recovering | .tripped => false

/-- BRAKE_REL. -/
def brakeRel (s : State) : Bool := brakeRelIn s.seq.axis

/-- TRIPPED keeps the drive on: BRAKE_SET is latched, ESTOP is not, nor any DROP-category condition (R2). -/
def trippedHolding (s : State) : Bool :=
  isLatched s .brakeSet && !isLatched s .estop && !s.sup.latched.any Condition.isDrop

/-- DRIVE_EN (R2). The open loop deasserts it in every state (Law 8). -/
def driveEn (s : State) : Bool :=
  !s.inp.loopOpen &&
    match s.seq.axis with
    | .waking | .parked | .releasing | .moving | .held | .suspended | .stopping | .setting | .recovering | .homing =>
      true
    | .unaddressed | .rest => false
    | .tripped => trippedHolding s

/-- The duty source of the table of states is 2048, or the drive is off (1.1, R2). -/
def dutyAtZero (s : State) : Bool :=
  !driveEn s ||
    match s.seq.axis with
    | .unaddressed | .rest | .waking | .parked | .suspended | .recovering => true
    | .releasing | .moving | .held | .stopping | .setting | .homing | .tripped => false

/-- The drive's duty on SPD_REF (R134). -/
def spdRef (s : State) : Nat := s.meas.activeDuty

/-! ## Cue numbers in use -/

/-- The number of the running cue, 0 for none (R69). -/
def runningCue (s : State) : Nat :=
  match s.ctl.ctx with
  | none => 0
  | some x => x.record.cue.number

/-- The number is that of the cue context, in any phase (R57, R62, R67). -/
def isRunning (s : State) (n : Nat) : Bool :=
  match s.ctl.ctx with
  | none => false
  | some x => decide (x.record.cue.number = n)

/-- The number stands in the armed list (R61). -/
def isArmed (s : State) (n : Nat) : Bool := s.ctl.armed.any fun a => decide (a.cue = n)

/-- The use of a number (R59). -/
def useOf (s : State) (n : Nat) : CueUse :=
  if isRunning s n then .running else if isArmed s n then .armed else .idle

/-! ## Enable, homing, start -/

/-- A homing request is pending or running, as the BUSY test reads it (R67). -/
def homingBusy (s : State) : Bool := decide (s.seq.startReq = .home) || decide (s.seq.axis = .homing)

/-- The BUSY test of a start passes (R67). -/
def startAllowed (s : State) : Bool :=
  s.ctl.ctx.isNone && !homingBusy s &&
    (decide (s.seq.axis = .rest) || decide (s.seq.axis = .waking) || decide (s.seq.axis = .parked))

/-- The NOT_IDLE test of a HOME passes (R125). -/
def homeIdle (s : State) : Bool :=
  (decide (s.seq.axis = .parked) || decide (s.seq.axis = .rest)) && s.ctl.ctx.isNone &&
    decide (s.seq.startReq ≠ .home)

/-- The clear verdict of the latest computation: no rule is active (R110, R119). -/
def clearVerdict (s : State) : Bool := !s.guard.active.any id

/-- The axis is stopping toward TRIPPED (R150). -/
def stoppingToTrip (s : State) : Bool :=
  (decide (s.seq.axis = .stopping) || decide (s.seq.axis = .setting)) && decide (s.seq.dest = .tripped)

/-- The rest timer's three conditions hold (R5). -/
def restConditions (s : State) : Bool :=
  decide (s.seq.axis = .parked) && s.ctl.armed.isEmpty && s.ctl.ctx.isNone

/-- The phase of the cue context is STARTING or RUNNING (R72). -/
def endable (x : CueContext) : Bool := decide (x.phase ≠ .ending)

/-! ## What STATUS reports -/

/-- The fault summary: each condition present or latched, in ascending order of code, with both marks (R151). -/
def faultSummary (s : State) : List (Condition × Bool × Bool) :=
  (conditionsWhere fun c => isPresent s c || isLatched s c).map fun c => (c, isPresent s c, isLatched s c)

/-- The cue phase of a STATUS, absent without a cue context (R165). -/
def reportedPhase (s : State) : Option CuePhase := s.ctl.ctx.map (·.phase)

/-- PACED_STALE of a STATUS, absent without a group context (R101). -/
def reportedPaced (s : State) : Bool :=
  match s.ctl.ctx with
  | none => false
  | some x => x.pacedStale

end Sys2Proof.Machine
end

