-- ==== Sys2Proof/Machine/Operands.lean ====
section
/-! DEFINITION. How the operands of a command are read: the receive filter, station sets, the STATUS payload, the
fields of a CUELOAD, the fields of a SETUP, the bytes and checks of R49, R153 and R165, the frames received and the
blocks stored. -/

namespace Sys2Proof.Machine

/-! ## Bytes and checks -/

/-- The register shifted `n` times, then what follows: 8005h is combined after a shift when the bit shifted out was 1
(R49). Each shift looks at its bit before the next begins, so that a long string can be evaluated. -/
def shiftThen (next : Check → Check) : Nat → Check → Check
  | 0, r => next r
  | n + 1, r => if r.msb then shiftThen next n ((r <<< 1) ^^^ 0x8005#16) else shiftThen next n (r <<< 1)

/-- The bytes of a string taken in turn into the register: each is combined into its upper eight bits, and eight shifts
follow (R49). -/
def checkBytes : List Byte → Check → Check
  | [], r => r
  | b :: rest, r => shiftThen (checkBytes rest) 8 (r ^^^ (b.zeroExtend 16 <<< 8))

/-- The 16-bit check over a string of bytes; the register starts at FFFFh (R49, R153). -/
def check16 (bytes : List Byte) : Check := checkBytes bytes 0xFFFF#16

/-- A 16-bit word as two bytes, the more significant first (R165). -/
def bytes2 (w : BitVec 16) : List Byte := [w.extractLsb' 8 8, w.extractLsb' 0 8]

/-- A 32-bit word as four bytes, the most significant first (R165). -/
def bytes4 (w : BitVec 32) : List Byte :=
  [w.extractLsb' 24 8, w.extractLsb' 16 8, w.extractLsb' 8 8, w.extractLsb' 0 8]

/-- Two bytes read as a number, the more significant first (R165). -/
def read2 (a b : Byte) : Nat := a.toNat * 256 + b.toNat

/-- Four bytes read as a number, the most significant first (R165). -/
def read4 (a b c d : Byte) : Nat := ((a.toNat * 256 + b.toNat) * 256 + c.toNat) * 256 + d.toNat

/-- The string of bytes of a group definition (R49). -/
def signatureBytes (number : Nat) (g : GroupPart) : List Byte :=
  bytes2 (BitVec.ofNat 16 number) ++ [BitVec.ofNat 8 g.number] ++ bytes2 (BitVec.ofNat 16 g.skew) ++
    [BitVec.ofNat 8 g.members.length] ++ g.members.map (BitVec.ofNat 8)

/-- The signature of a record: 0 without a group part, else the check with 0 replaced by 1 (R49). -/
def signatureOf (c : CueDef) : Check :=
  match c.group with
  | none => 0
  | some g => let r := check16 (signatureBytes c.number g); if r = 0 then 1 else r

/-- The bytes of a frame on the line: header, payload and check (R153). -/
def wireFrame (kind sender addressee : Nat) (seq : Byte) (payload : List Byte) : List Byte :=
  let body := [BitVec.ofNat 8 kind, BitVec.ofNat 8 sender, BitVec.ofNat 8 addressee, seq,
    BitVec.ofNat 8 payload.length] ++ payload
  body ++ bytes2 (check16 body)

/-! ## The receive filter -/

/-- Who sends a kind (R165). -/
inductive SenderSide where
  | axis | console
  deriving DecidableEq, Repr

/-- The filter's tests of sender and addressee (R158), on a part that takes frames. -/
def filterPasses (s : State) (side : SenderSide) (sender addressee : Nat) : Bool :=
  decide (sender ≠ 0) &&
    (match side with
      | .axis => !(decide (48 ≤ sender) && decide (sender ≤ 63))
      | .console => !(decide (1 ≤ sender) && decide (sender ≤ 47))) &&
    (decide (addressee = 0) || decide (addressee = s.station))

/-- The port hands on a frame of an axis kind (R158). -/
def axisFrameTaken (s : State) (h : Hdr) : Bool := addressed s && filterPasses s .axis h.sender h.addressee

/-- The port hands on a frame of a console kind (R158). -/
def consoleFrameTaken (s : State) (h : Hdr) : Bool := addressed s && filterPasses s .console h.sender h.addressee

/-- The REPLY queue has a free place, counting reservations (R163) and the places of the requests that wait to be acted
on, so that the answer to a request handed on is certain to find one (R159, log 33). -/
def replyFree (s : State) : Bool := decide (s.line.replies.length + s.store.waiting.length < 4)

/-- An addressed request is handed on and acted on: it passes the filter, names the own station and finds a free
REPLY place (R53, R125, R159, R169, R170). -/
def requestTaken (s : State) (h : Hdr) : Bool :=
  consoleFrameTaken s h && decide (h.addressee = s.station) && replyFree s

/-- A station is in the set (R165). -/
def inSet (set : StationSet) (n : Nat) : Bool := set.getLsbD n

/-- A console frame with a station set concerns this axis (R62, R64, R65, R72, R164). -/
def setFrameTaken (s : State) (h : Hdr) (set : StationSet) : Bool :=
  consoleFrameTaken s h && inSet set s.station

/-- The kind codes of R165, with the side that sends each. -/
def kindSide : Nat → Option SenderSide
  | 1 | 2 | 3 | 4 | 5 => some .axis
  | 8 | 9 | 10 | 11 | 12 | 13 | 14 | 15 | 16 | 17 | 18 | 19 | 20 => some .console
  | _ => none

/-- The payload lengths the filter itself tests (R158, R165). -/
def tabledLength : Nat → Option Nat
  | 2 => some 3
  | 4 => some 5
  | 8 => some 11
  | 9 => some 2
  | 12 => some 10
  | _ => none

/-- A received string of bytes passes the check of R153: the length agrees with its payload length, and the last two
bytes are the check of the rest. A payload length above 88, outside the values of the field, fails whatever the rest
(log 56). -/
def checkPasses (raw : List Byte) : Bool :=
  match raw with
  | _ :: _ :: _ :: _ :: len :: _ =>
    decide (len.toNat ≤ 88) && decide (raw.length = 7 + len.toNat) &&
      decide (raw.drop (5 + len.toNat) = bytes2 (check16 (raw.take (5 + len.toNat))))
  | _ => false

/-- The port hands a received string of bytes to a block: the check and every test of the filter pass, and the
kind is not one that only consoles take (R153, R158, R159). -/
def handedOn (s : State) (raw : List Byte) : Bool :=
  addressed s && checkPasses raw &&
    match raw with
    | kind :: sender :: addressee :: _ :: len :: _ =>
      (match kindSide kind.toNat with
        | none => false
        | some side => filterPasses s side sender.toNat addressee.toNat) &&
      (match tabledLength kind.toNat with
        | none => true
        | some n => decide (len.toNat = n)) &&
      !(decide (kind.toNat = 3) || decide (kind.toNat = 4) || decide (kind.toNat = 5))
    | _ => false

/-! ## Reading a received frame -/

/-- The station set of eight bytes: byte 0 holds stations 0 to 7, station 0 in the least significant bit, byte 7 holds
stations 56 to 63 (R165). -/
def readSet : List Byte → Option StationSet
  | [b0, b1, b2, b3, b4, b5, b6, b7] => some (b7 ++ b6 ++ b5 ++ b4 ++ b3 ++ b2 ++ b1 ++ b0)
  | _ => none

/-- The command of a payload that is a station set and nothing else. -/
def setOnly (f : StationSet → Instr) (payload : List Byte) : Option Instr := (readSet payload).map f

/-- The command of a payload without fields. -/
def noFields (i : Instr) (payload : List Byte) : Option Instr := if payload.isEmpty then some i else none

/-- The cue number at the head of a payload, and the bytes after it (R165). -/
def readCue (f : Nat → List Byte → Option Instr) : List Byte → Option Instr
  | a :: b :: rest => f (read2 a b) rest
  | _ => none

/-- The command that a frame of a kind and a payload is. A payload that is not exactly the fields its owner reads gives
none (R158, R165). CUELOAD, CUEASK and SETUP have no byte layout in the spec; their commands carry their fields (log
11). -/
def readFrame (kind : Nat) (h : Hdr) (payload : List Byte) : Option Instr :=
  match kind with
  | 1 => some (.statusFrame h payload)
  | 2 =>
    readCue (fun cue rest =>
      match rest with
      | [m] => some (.markFrame h cue m.toNat)
      | _ => none) payload
  | 8 =>
    readCue (fun cue rest =>
      match rest.drop 8 with
      | [w] => (readSet (rest.take 8)).map fun set => .standby h cue set w.toNat
      | _ => none) payload
  | 9 => readCue (fun cue rest => noFields (.go h cue) rest) payload
  | 10 => readCue (fun cue rest => setOnly (.cancel h cue) rest) payload
  | 11 => setOnly (.stop h) payload
  | 12 =>
    match payload.drop 8 with
    | [o, c] => (readSet (payload.take 8)).map fun set => .enable h set o.toNat c
    | _ => none
  | 13 => setOnly (.clear h) payload
  | 14 => noFields (.home h) payload
  | 16 => readCue (fun cue rest => noFields (.cuedrop h cue) rest) payload
  | 18 => noFields (.save h) payload
  | 20 => setOnly (.linereset h) payload
  | _ => none

/-- The command of a received string of bytes: that of a frame which passes the check and every test of the filter and
holds exactly the fields its owner reads; none for a string that is discarded (R153, R158, R159). -/
def receivedFrame (s : State) (raw : List Byte) : Option Instr :=
  if handedOn s raw then
    match raw with
    | kind :: sender :: addressee :: seq :: len :: rest =>
      readFrame kind.toNat ⟨sender.toNat, addressee.toNat, seq⟩ (rest.take len.toNat)
    | _ => none
  else none

/-! ## STATUS payload -/

/-- The code of an axis state in a STATUS: 1 to 13 in the order of 1.1 (R165). -/
def AxisState.code : AxisState → Nat
  | .unaddressed => 1
  | .rest => 2
  | .waking => 3
  | .parked => 4
  | .releasing => 5
  | .moving => 6
  | .held => 7
  | .suspended => 8
  | .stopping => 9
  | .setting => 10
  | .recovering => 11
  | .homing => 12
  | .tripped => 13

/-- The axis state of a STATUS, one of the twelve a sending axis can report (R88). -/
def sendingState : Nat → Option AxisState
  | 2 => some .rest
  | 3 => some .waking
  | 4 => some .parked
  | 5 => some .releasing
  | 6 => some .moving
  | 7 => some .held
  | 8 => some .suspended
  | 9 => some .stopping
  | 10 => some .setting
  | 11 => some .recovering
  | 12 => some .homing
  | 13 => some .tripped
  | _ => none

/-- The code of a cue phase (R165). -/
def phaseCode : Option CuePhase → Nat
  | none => 0
  | some .starting => 1
  | some .running => 2
  | some .ending => 3

/-- The cue phase of a code; a code above 3 names none (R165, log 28). -/
def phaseOfCode : Nat → Option (Option CuePhase)
  | 0 => some none
  | 1 => some (some .starting)
  | 2 => some (some .running)
  | 3 => some (some .ending)
  | _ => none

/-- The armed pairs of a STATUS: `n` pairs of cue number and signature, and the bytes after them (R165). -/
def readPairs : Nat → List Byte → Option (List (Nat × Check) × List Byte)
  | 0, rest => some ([], rest)
  | n + 1, a :: b :: c :: d :: rest =>
    match readPairs n rest with
    | none => none
    | some (ps, r) => some ((read2 a b, BitVec.ofNat 16 (read2 c d)) :: ps, r)
  | _ + 1, _ => none

/-- The bytes after the armed pairs have the length the fault count declares: seven of the last event, the count,
one per item (R165). -/
def tailAgrees (rest : List Byte) : Bool :=
  match rest.drop 7 with
  | f :: items => decide (items.length = f.toNat)
  | [] => false

/-- The cue phase agrees with the cue number: present with no number, or absent with a number of 1 to 999, is
malformed (R88). -/
def phaseAgrees (cue : Nat) (phase : Option CuePhase) : Bool :=
  match phase with
  | some _ => decide (cue ≠ 0)
  | none => !(decide (1 ≤ cue) && decide (cue ≤ 999))

/-- The kept fields of a well-formed STATUS payload; `none` for a malformed one (R83, R88, R165, log 28). -/
def parseStatus (p : List Byte) : Option PeerContents :=
  match p with
  | b0 :: _ :: b2 :: b3 :: b4 :: b5 :: b6 :: b7 :: b8 :: b9 :: b10 :: b11 :: b12 :: b13 :: b14 :: b15 :: b16 :: b17
      :: b18 :: _ :: _ :: _ :: _ :: _ :: _ :: _ :: _ :: _ :: _ :: _ :: a :: rest =>
    match sendingState b0.toNat, phaseOfCode b4.toNat, readPairs a.toNat rest with
    | some axis, some phase, some (pairs, tail) =>
      let cue := read2 b2 b3
      let progress := read2 b5 b6
      if decide (a.toNat ≤ 4) && decide (progress ≤ 4096) && phaseAgrees cue phase && tailAgrees tail then
        some { axis := axis, cue := cue, phase := phase, progress := progress,
               setPoint := read4 b7 b8 b9 b10, measured := read4 b11 b12 b13 b14,
               stopPoint := read4 b15 b16 b17 b18, armed := pairs }
      else none
    | _, _, _ => none
  | _ => none

/-! ## CUELOAD fields -/

/-- A value is given and lies in a range. -/
def given (o : Option Nat) (lo hi : Nat) : Bool :=
  match o with
  | none => false
  | some n => decide (lo ≤ n) && decide (n ≤ hi)

/-- A position is given and lies within the live soft limits. -/
def withinSoft (live : Setup) (o : Option Int) : Bool :=
  match o with
  | none => false
  | some p => decide ((live.softLow : Int) ≤ p) && decide (p ≤ (live.softHigh : Int))

/-- The test of mark `i` (0 for mark 1) of a list declared to hold `n`: within the soft limits and unlike every
earlier mark (R55, identifiers 9 to 12). -/
def markGood (live : Setup) (marks : List Int) (n i : Nat) : Bool :=
  decide (n ≤ i) ||
    (withinSoft live marks[i]? &&
      match marks[i]? with
      | none => false
      | some p => !(marks.take i).contains p)

/-- Strictly ascending. -/
def ascending : List Nat → Bool
  | [] => true
  | [_] => true
  | a :: b :: rest => decide (a < b) && ascending (b :: rest)

/-- The member list test (R55, identifier 16): the declared members are given, each 1 to 47 and greater than the one
before it, the own station among them. -/
def membersGood (own : Nat) (g : GroupLoad) : Bool :=
  match g.nMembers with
  | none => false
  | some n =>
    let ms := g.members.take n
    decide (ms.length = n) && ms.all axisStation && ascending ms && ms.contains own

/-- The tests of the group part, by identifier (R55). -/
def groupTests (own : Nat) : Option GroupLoad → List (Nat × Bool)
  | none => []
  | some g =>
    [(13, given g.number 1 255), (14, given g.skew 16 512), (15, given g.nMembers 2 8), (16, membersGood own g)]

/-- The tests of the follow part, by identifier (R55). -/
def followTests (own : Nat) : Option FollowLoad → List (Nat × Bool)
  | none => []
  | some f =>
    [(17, given f.station 1 47 && decide (f.station ≠ some own)), (18, given f.cue 1 999), (19, given f.mark 1 4),
      (20, given f.delay 0 10000)]

/-- The payload holds as many marks and members as it declares, and nothing more (R55, identifier 21). -/
def lengthGood (r : CueLoad) : Bool :=
  r.lengthAgrees && decide (some r.marks.length = r.nMarks) &&
    match r.group with
    | none => true
    | some g => decide (some g.members.length = g.nMembers)

/-- Every test of R55 in the order of its identifiers, `true` where the field is good. -/
def loadTests (live : Setup) (own : Nat) (r : CueLoad) : List (Nat × Bool) :=
  let n := r.nMarks.getD 0
  [(1, given r.number 1 999), (2, withinSoft live r.target),
    (3, given r.vmax 10 2000 && given r.vmax 0 live.axisVmax), (4, given r.accel 50 2000), (5, given r.decel 50 2000),
    (6, given r.hold 5 300), (7, r.landing.isSome), (8, given r.nMarks 0 4),
    (9, markGood live r.marks n 0), (10, markGood live r.marks n 1), (11, markGood live r.marks n 2),
    (12, markGood live r.marks n 3)] ++
    groupTests own r.group ++ followTests own r.follow ++ [(21, lengthGood r)]

/-- The identifier of the first field refused, if any (R55). -/
def firstBadField (live : Setup) (own : Nat) (r : CueLoad) : Option Nat :=
  ((loadTests live own r).find? fun t => !t.2).map (·.1)

/-- The record a CUELOAD carries (R45). -/
def recordOf (r : CueLoad) : CueDef where
  number := r.number.getD 0
  target := (r.target.getD 0).toNat
  vmax := r.vmax.getD 0
  accel := r.accel.getD 0
  decel := r.decel.getD 0
  hold := r.hold.getD 0
  landing := r.landing.getD false
  marks := r.marks.map Int.toNat
  group := r.group.map fun g => ⟨g.number.getD 0, g.skew.getD 0, g.members⟩
  follow := r.follow.map fun f => ⟨f.station.getD 0, f.cue.getD 0, f.mark.getD 0, f.delay.getD 0⟩

/-! ## SETUP fields -/

/-- The range of a numeric setup field, by identifier (R167). -/
def fieldRange : Nat → Option (Nat × Nat)
  | 1 => some (1000, 100000)
  | 2 => some (0, 40000)
  | 3 => some (0, 40000)
  | 4 => some (0, 40000)
  | 6 => some (10, 500)
  | 7 => some (50, 2000)
  | 8 => some (100, 40000)
  | 9 => some (10, 2000)
  | 10 => some (500, 5000)
  | 11 => some (5, 200)
  | 12 => some (10, 10000)
  | 13 => some (0, 200000)
  | 14 => some (0, 200000)
  | 15 => some (0, 4095)
  | 16 => some (1, 100)
  | 17 => some (1, 100)
  | 18 => some (100000, 4000000)
  | 19 => some (100, 1000)
  | 20 => some (500, 5000)
  | 21 => some (0, 240)
  | 22 => some (1, 30)
  | 23 => some (500, 10000)
  | 24 => some (10, 50)
  | 25 => some (30, 250)
  | 26 => some (200, 2000)
  | 27 => some (100, 500)
  | 28 => some (100, 5000)
  | 29 => some (0, 500)
  | 40 => some (0, 8)
  | _ => none

/-- The identifiers of the numeric fields (R167). -/
def numericFields : List Nat :=
  [1, 2, 3, 4, 6, 7, 8, 9, 10, 11, 12, 13, 14, 15, 16, 17, 18, 19, 20, 21, 22, 23, 24, 25, 26, 27, 28, 29, 40]

/-- The value of a numeric field (R167). -/
def fieldValue (S : Setup) : Nat → Nat
  | 1 => S.nmPerCount
  | 2 => S.softLow
  | 3 => S.softHigh
  | 4 => S.homePos
  | 6 => S.homeSpeed
  | 7 => S.homeAccel
  | 8 => S.homeTravel
  | 9 => S.axisVmax
  | 10 => S.emergency
  | 11 => S.followLimit
  | 12 => S.encJump
  | 13 => S.overload
  | 14 => S.slack
  | 15 => S.loadZero
  | 16 => S.loadScale
  | 17 => S.kp
  | 18 => S.fullScale
  | 19 => S.brakeTime
  | 20 => S.wakeTimeout
  | 21 => S.restCount
  | 22 => S.holdToBrake
  | 23 => S.dwell
  | 24 => S.statusInterval
  | 25 => S.staleLimit
  | 26 => S.lostLimit
  | 27 => S.enableLapse
  | 28 => S.inPosition
  | 29 => S.landingBand
  | 40 => S.nRules
  | _ => 0

/-- The setup with a numeric field changed (R167, R169). -/
def setField (S : Setup) (ident n : Nat) : Setup :=
  match ident with
  | 1 => { S with nmPerCount := n }
  | 2 => { S with softLow := n }
  | 3 => { S with softHigh := n }
  | 4 => { S with homePos := n }
  | 6 => { S with homeSpeed := n }
  | 7 => { S with homeAccel := n }
  | 8 => { S with homeTravel := n }
  | 9 => { S with axisVmax := n }
  | 10 => { S with emergency := n }
  | 11 => { S with followLimit := n }
  | 12 => { S with encJump := n }
  | 13 => { S with overload := n }
  | 14 => { S with slack := n }
  | 15 => { S with loadZero := n }
  | 16 => { S with loadScale := n }
  | 17 => { S with kp := n }
  | 18 => { S with fullScale := n }
  | 19 => { S with brakeTime := n }
  | 20 => { S with wakeTimeout := n }
  | 21 => { S with restCount := n }
  | 22 => { S with holdToBrake := n }
  | 23 => { S with dwell := n }
  | 24 => { S with statusInterval := n }
  | 25 => { S with staleLimit := n }
  | 26 => { S with lostLimit := n }
  | 27 => { S with enableLapse := n }
  | 28 => { S with inPosition := n }
  | 29 => { S with landingBand := n }
  | 40 => { S with nRules := n }
  | _ => S

/-- The range of a field of a rule, by its place 1 to 6 (R167). -/
def ruleFieldRange : Nat → Option (Nat × Nat)
  | 1 => some (1, 47)
  | 2 => some (0, 40000)
  | 3 => some (0, 40000)
  | 4 => some (0, 40000)
  | 5 => some (0, 40000)
  | 6 => some (0, 500)
  | _ => none

/-- A rule with a field changed. -/
def setRuleField (r : ClearanceRule) (place n : Nat) : ClearanceRule :=
  match place with
  | 1 => { r with peer := n }
  | 2 => { r with peerLow := n }
  | 3 => { r with peerHigh := n }
  | 4 => { r with ownLow := n }
  | 5 => { r with ownHigh := n }
  | 6 => { r with margin := n }
  | _ => r

/-- The classes a configurable condition allows (R137). -/
def classAllowed : Condition → RespClass → Bool
  | .following, .latch | .following, .recover => true
  | .overload, .latch | .overload, .recover | .overload, .note => true
  | .slack, _ => true
  | .loadSensor, .latch | .loadSensor, .note => true
  | _, _ => false

/-- The condition a class field configures, by identifier (R167). -/
def classField : Nat → Option Condition
  | 30 => some .following
  | 31 => some .overload
  | 32 => some .slack
  | 33 => some .loadSensor
  | _ => none

/-- The setup with a response class changed. -/
def setClass (S : Setup) (c : Condition) (k : RespClass) : Setup :=
  match c with
  | .following => { S with clsFollowing := k }
  | .overload => { S with clsOverload := k }
  | .slack => { S with clsSlack := k }
  | .loadSensor => { S with clsLoadSensor := k }
  | _ => S

/-- A number lies in a range. -/
def inRange (r : Nat × Nat) (n : Nat) : Bool := decide (r.1 ≤ n) && decide (n ≤ r.2)

/-- The setup with a rule field changed, where identifier and value are good (R167, R169). -/
def applyRuleField (own : Nat) (S : Setup) (ident n : Nat) : Option Setup :=
  let rule := ident / 100 - 1
  let place := ident % 100
  if h : 100 ≤ ident ∧ rule < 8 then
    match ruleFieldRange place with
    | none => none
    | some r =>
      if inRange r n && !(decide (place = 1) && decide (n = own)) then
        some { S with rules := S.rules.set rule (setRuleField (S.rules[rule]'h.2) place n) h.2 }
      else none
  else none

/-- The stored image after a SETUP of the field, `none` where the RANGE test refuses it (R169). -/
def applySetup (own : Nat) (S : Setup) (ident : Nat) (v : SetupValue) : Option Setup :=
  match v with
  | .num n =>
    match fieldRange ident with
    | some r => if inRange r n then some (setField S ident n) else none
    | none => applyRuleField own S ident n
  | .dir d => if ident = 5 then some { S with homeDir := d } else none
  | .cls k =>
    match classField ident with
    | none => none
    | some c => if classAllowed c k then some (setClass S c k) else none

/-- The rules in use: as many of the first as field 40 gives (R167). -/
def rulesInUse (S : Setup) : List ClearanceRule := S.rules.toList.take S.nRules

/-- A rule in use passes the content check at the straps' station (R168). -/
def ruleGood (own : Nat) (r : ClearanceRule) : Bool :=
  inRange (1, 47) r.peer && inRange (0, 40000) r.peerLow && inRange (0, 40000) r.peerHigh &&
    inRange (0, 40000) r.ownLow && inRange (0, 40000) r.ownHigh && inRange (0, 500) r.margin &&
    decide (r.peerLow ≤ r.peerHigh) && decide (r.ownLow ≤ r.ownHigh) && decide (r.peer ≠ own)

/-- A numeric field lies in its range. -/
def fieldGood (S : Setup) (ident : Nat) : Bool :=
  match fieldRange ident with
  | none => true
  | some r => inRange r (fieldValue S ident)

/-- The content check (R168). -/
def contentGood (own : Nat) (S : Setup) : Bool :=
  numericFields.all (fieldGood S) && classAllowed .following S.clsFollowing && classAllowed .overload S.clsOverload &&
    classAllowed .slack S.clsSlack && classAllowed .loadSensor S.clsLoadSensor && decide (S.softLow < S.softHigh) &&
    (rulesInUse S).all (ruleGood own)

/-! ## Stored blocks -/

/-- The byte of a direction in the setup block (log 54). -/
def dirByte : Dir → Byte
  | .up => 0
  | .down => 1

/-- The byte of a response class in the setup block (log 54). -/
def classByte : RespClass → Byte
  | .latch => 0
  | .recover => 1
  | .note => 2
  | .off => 3

/-- The bytes of a clearance rule in the setup block (log 54). -/
def ruleBytes (r : ClearanceRule) : List Byte :=
  [r.peer, r.peerLow, r.peerHigh, r.ownLow, r.ownHigh, r.margin].flatMap fun n => bytes2 (BitVec.ofNat 16 n)

/-- The contents of the setup block as the check takes them: the revision, then every field, the numbers in the order
of their identifiers, the direction, the classes and the rules (R168, log 54). -/
def setupBytes (S : Setup) (revision : BitVec 16) : List Byte :=
  bytes2 revision ++
    (numericFields.flatMap fun i => bytes4 (BitVec.ofNat 32 (fieldValue S i))) ++
    [dirByte S.homeDir, classByte S.clsFollowing, classByte S.clsOverload, classByte S.clsSlack,
      classByte S.clsLoadSensor] ++
    S.rules.toList.flatMap ruleBytes

/-- The check of a setup block (R168). -/
def setupCheck (S : Setup) (revision : BitVec 16) : Check := check16 (setupBytes S revision)

/-- The setup block passes its integrity test (R168). -/
def NvSetup.good (n : NvSetup) : Bool := decide (n.check = setupCheck n.image n.revision)

/-- The block that a SETUP writes: the image and the revision with a new check (R169). -/
def writtenSetup (image : Setup) (revision : BitVec 16) : NvSetup := ⟨image, revision, setupCheck image revision⟩

/-- The bytes of a group part in the cue store; one byte says whether it is present (log 54). -/
def groupBytes : Option GroupPart → List Byte
  | none => [0]
  | some g =>
    [1, BitVec.ofNat 8 g.number] ++ bytes2 (BitVec.ofNat 16 g.skew) ++ [BitVec.ofNat 8 g.members.length] ++
      g.members.map (BitVec.ofNat 8)

/-- The bytes of a follow part in the cue store (log 54). -/
def followBytes : Option FollowPart → List Byte
  | none => [0]
  | some f =>
    [1, BitVec.ofNat 8 f.station] ++ bytes2 (BitVec.ofNat 16 f.cue) ++ [BitVec.ofNat 8 f.mark] ++
      bytes2 (BitVec.ofNat 16 f.delay)

/-- The bytes of a record in the cue store, without its signature (R170, log 54). -/
def cueBytes (c : CueDef) : List Byte :=
  ([c.number, c.target, c.vmax, c.accel, c.decel, c.hold].flatMap fun n => bytes2 (BitVec.ofNat 16 n)) ++
    [if c.landing then 1 else 0, BitVec.ofNat 8 c.marks.length] ++
    (c.marks.flatMap fun m => bytes2 (BitVec.ofNat 16 m)) ++ groupBytes c.group ++ followBytes c.follow

/-- The check of a cue store over its count and its records (R170). -/
def cueCheck (count : Nat) (records : List CueDef) : Check :=
  check16 (bytes2 (BitVec.ofNat 16 count) ++ records.flatMap cueBytes)

/-- The records a cue store gives: as many as its count says (R170). -/
def NvCues.stored (n : NvCues) : List CueDef := n.records.take n.count

/-- The cue store passes its check: it is not marked invalid, and count and records agree with the check (R170). -/
def NvCues.good (n : NvCues) : Bool := n.valid && decide (n.check = cueCheck n.count n.stored)

/-- The cue store that a SAVE leaves: the records, their count and check, valid again (R170). -/
def writtenCues (records : List CueDef) : NvCues := ⟨true, records.length, records, cueCheck records.length records⟩

end Sys2Proof.Machine
end

