-- ==== Sys2Proof/Machine/Profile.lean ====
section
/-! DEFINITION. The arithmetic of the profile generator: stopping distance, candidates, steps, progress, marks and
duty (chapter 2), on exact integers. -/

namespace Sys2Proof.Machine

/-! ## Units and positions -/

/-- Millimetres in nm (R25). -/
def mmToNm (n : Nat) : Nat := n * 1000000

/-- An exact position narrowed to 48 bits; outside the range the value is open (R23, log 9). -/
def narrowPosition (x : Int) : Position :=
  if 0 ≤ x ∧ x < 281474976710656 then BitVec.ofNat 48 x.toNat else Config.positionBeyond x

/-- The measured position of an exact sum, clamped to 0 to 2^48 - 1 (R123). -/
def clampPosition (x : Int) : Position :=
  if x < 0 then 0
  else if x < 281474976710656 then BitVec.ofNat 48 x.toNat
  else BitVec.allOnes 48

/-- The distance between two positions. -/
def distance (a b : Nat) : Nat := if a ≤ b then b - a else a - b

/-- The advance from `a` to `b` along a direction, signed (R25). -/
def advance (d : Dir) (a b : Int) : Int :=
  match d with
  | .up => b - a
  | .down => a - b

/-- The position `n` nm further along a direction. -/
def forward (d : Dir) (s : Position) (n : Nat) : Position :=
  match d with
  | .up => narrowPosition ((s.toNat : Int) + n)
  | .down => narrowPosition ((s.toNat : Int) - n)

/-! ## The move -/

/-- The direction of a move: UP if the target lies above the start, otherwise DOWN (R25). -/
def moveDir (s0 target : Nat) : Dir := if s0 < target then .up else .down

/-- The velocity limit of a move (R25). -/
def moveVmax (live : Setup) (c : CueDef) : Nat :=
  if live.axisVmax < c.vmax then live.axisVmax * 1000 else c.vmax * 1000

/-- The move inputs fixed at the completion of a release, from the record and the measured position (R25). -/
def fixMove (live : Setup) (c : CueDef) (measured : Nat) : MoveInputs where
  s0 := measured
  target := mmToNm c.target
  dir := moveDir measured (mmToNm c.target)
  total := distance measured (mmToNm c.target)
  vmax := moveVmax live c
  accel := c.accel
  decel := c.decel

/-- R_t, the distance to the target (R29). -/
def remainingTo (m : MoveInputs) (s : Position) : Nat := distance s.toNat m.target

/-- R_e, the distance to the envelope bound in the direction of travel, 0 at or beyond it (R29). -/
def envelopeRoom (d : Dir) (lower upper : Int) (s : Position) : Nat :=
  match d with
  | .up => (upper - s.toNat).toNat
  | .down => ((s.toNat : Int) - lower).toNat

/-- A retaken set-point: the measured position, or the target where that lies beyond it (R25). -/
def retakeFor (m : MoveInputs) (measured : Position) : Position :=
  match m.dir with
  | .up => if m.target < measured.toNat then BitVec.ofNat 48 m.target else measured
  | .down => if measured.toNat < m.target then BitVec.ofNat 48 m.target else measured

/-! ## Velocity -/

/-- The override-scaled limit Vlim (R26). -/
def vLimit (vmax override : Nat) : Nat := vmax * override / 100

/-- The stopping distance S(v) for a deceleration (R28). -/
def stoppingDistance (v x : Nat) : Nat :=
  let n := v / x
  n * v - x * n * (n + 1) / 2

/-- A candidate is feasible within R (R30). -/
def feasible (c decel room : Nat) : Bool := decide (c + stoppingDistance c decel ≤ room)

/-- The candidates offered, in order (R30). -/
def candidates (v vTarget accel decel : Nat) : List Nat :=
  (if v < vTarget then [min (v + accel) vTarget] else []) ++
    (if v ≤ vTarget then [v] else []) ++
    (if vTarget < v then [max (v - decel) vTarget] else []) ++ [v - decel]

/-- The first feasible candidate; with none, c4 and an overrun (R30, R31). -/
def chooseVelocity (v vTarget accel decel room : Nat) : Nat × Bool :=
  match (candidates v vTarget accel decel).find? fun c => feasible c decel room with
  | some c => (c, false)
  | none => (v - decel, true)

/-- The creep conditions, for a chosen velocity of 0 (R33). -/
def creepAllowed (rt re vTarget accel : Nat) : Bool :=
  decide (0 < rt) && decide (rt ≤ accel) && decide (rt ≤ re) && decide (0 < vTarget)

/-- What a period's computation came to. -/
structure PeriodStep where
  /-- The velocity after the period. -/
  v : Nat
  /-- The step of the set-point. -/
  step : Nat
  /-- The step reached the end of the move. -/
  arrived : Bool
  /-- The period was an OVERRUN period. -/
  overrun : Bool
  deriving DecidableEq, Repr

/-- A period in RUN mode (R30 to R33). -/
def runPeriod (v vTarget accel decel rt re : Nat) : PeriodStep :=
  let choice := chooseVelocity v vTarget accel decel (min rt re)
  if choice.1 = 0 ∧ creepAllowed rt re vTarget accel = true then ⟨0, rt, true, choice.2⟩
  else if rt ≤ choice.1 then ⟨0, rt, true, choice.2⟩
  else ⟨choice.1, choice.1, false, choice.2⟩

/-- A period in FAST mode (R36). -/
def fastPeriod (v emergency rt : Nat) : PeriodStep :=
  if rt ≤ v - emergency then ⟨0, rt, true, false⟩ else ⟨v - emergency, v - emergency, false, false⟩

/-- A period in HOMING mode, within the homing travel remaining (R37). -/
def homingPeriod (v vTarget accel travel : Nat) : PeriodStep :=
  let choice := chooseVelocity v vTarget accel accel travel
  if travel ≤ choice.1 then ⟨0, travel, true, false⟩ else ⟨choice.1, choice.1, false, false⟩

/-- The resume test of SUSPENDED (R12, R34). Creep is allowed by the three conditions that R33 lists, whatever velocity a
period of RUN mode would choose (log 63). -/
def resumeAllowed (vTarget accel rt re : Nat) : Bool :=
  (decide (0 < vTarget) && decide (accel ≤ min rt re)) || creepAllowed rt re vTarget accel

/-- The homing travel remaining (R37). -/
def homingRemaining (h : HomingInputs) (s : Position) : Nat :=
  ((h.travel : Int) - advance h.dir h.h0 s.toNat).toNat

/-! ## Progress, stop point, marks -/

/-- The progress value of a period (R39). -/
def progressValue (m : MoveInputs) (s : Position) : Nat :=
  if m.total = 0 then 4096
  else
    let travelled := advance m.dir m.s0 s.toNat
    if travelled < 0 then 0 else 4096 * travelled.toNat / m.total

/-- The stop point of a moving mode (R40). -/
def stopPointOf (d : Dir) (s : Position) (v decel room : Nat) : Position :=
  forward d s (min (stoppingDistance v decel) room)

/-- A change of the set-point carries it from short of a mark to at or past it (R41). -/
def crosses (d : Dir) (old new : Position) (mark : Nat) : Bool :=
  match d with
  | .up => decide (old.toNat < mark) && decide (mark ≤ new.toNat)
  | .down => decide (mark < old.toNat) && decide (new.toNat ≤ mark)

/-- The indices of the marks that a change fires, ascending (R41). -/
def firedBy (d : Dir) (old new : Position) (marks : List Nat) (fired : List Nat) : List Nat :=
  [1, 2, 3, 4].filter fun i =>
    match marks[i - 1]? with
    | none => false
    | some m => crosses d old new (mmToNm m) && !fired.contains i

/-- The fired-marks set with indices joined to it, ascending (R41). -/
def joinFired (fired new : List Nat) : List Nat := [1, 2, 3, 4].filter fun i => fired.contains i || new.contains i

/-! ## Speed reference -/

/-- The position error, µm, truncated toward zero, UP positive (R42). -/
def positionError (s measured : Position) : Int := Int.tdiv ((s.toNat : Int) - measured.toNat) 1000

/-- A value clamped to a range. -/
def clampInt (lo hi x : Int) : Int := max lo (min hi x)

/-- The clamped reference (R42). -/
def reference (live : Setup) (velocity error : Int) : Int :=
  clampInt (-(live.fullScale : Int)) live.fullScale (velocity + (live.kp : Int) * error)

/-- The duty of a reference (R43). -/
def dutyOf (live : Setup) (ref : Int) : Nat :=
  (clampInt 1 4095 (2048 + Int.tdiv (ref * 2047) live.fullScale)).toNat

/-- A velocity signed by its direction, UP positive (R42, R44). -/
def signedVelocity (d : Dir) (v : Nat) : Int :=
  match d with
  | .up => v
  | .down => -(v : Int)

end Sys2Proof.Machine
end

