-- ==== Sys2Proof/Machine/Peers.lean ====
section
/-! DEFINITION. The peer table (chapter 5): entries, holdings, joining, leaving, updates and ageing. -/

namespace Sys2Proof.Machine

/-- The capacity of the peer table (R81). -/
def peerCapacity : Nat := 16

/-- The entry of a station (R91). -/
def findPeer (ps : List Peer) (n : Nat) : Option Peer := ps.find? fun p => decide (p.station = n)

/-- A station has an entry. -/
def hasPeer (ps : List Peer) (n : Nat) : Bool := ps.any fun p => decide (p.station = n)

/-- The interest set holds GROUP (R84). -/
def Peer.groupInterest (p : Peer) : Bool := p.holdings.any (·.group)

/-- The interest set holds FOLLOW (R84). -/
def Peer.followInterest (p : Peer) : Bool := p.holdings.any (·.follow)

/-- The interest set is not empty (R84). -/
def Peer.interested (p : Peer) : Bool := p.clearance || !p.holdings.isEmpty

/-- An entry at its creation (R82). -/
def Peer.new (n : Nat) (clearance : Bool) : Peer := ⟨n, clearance, [], .unheard, 0, none⟩

/-- An entry inserted at its place in the order; a station that has an entry keeps it (R81, R86). -/
def insertPeer (e : Peer) : List Peer → List Peer
  | [] => [e]
  | p :: ps =>
    if e.station < p.station then e :: p :: ps
    else if e.station = p.station then p :: ps
    else p :: insertPeer e ps

/-- A holding list with a kind added under a cue number (R84, R86). -/
def addKind (cue : Nat) (group follow : Bool) : List Holding → List Holding
  | [] => [⟨cue, group, follow⟩]
  | h :: hs => if h.cue = cue then ⟨cue, h.group || group, h.follow || follow⟩ :: hs else h :: addKind cue group follow hs

/-- The table with a kind added to a station's entry, which is created UNHEARD where there is none (R86). -/
def addInterest (cue : Nat) (group follow : Bool) (ps : List Peer) (n : Nat) : List Peer :=
  (insertPeer (Peer.new n false) ps).map fun p =>
    if p.station = n then { p with holdings := addKind cue group follow p.holdings } else p

/-- The group members of a record other than self (R47). -/
def otherMembers (own : Nat) (c : CueDef) : List Nat :=
  match c.group with
  | none => []
  | some g => g.members.filter fun m => decide (m ≠ own)

/-- The trigger station of a record (R48). -/
def triggerStations (c : CueDef) : List Nat :=
  match c.follow with
  | none => []
  | some f => [f.station]

/-- The distinct stations a record needs that have no entry (R86). A station that an arming just taken has created has
one; the fourth case of R93, read to the letter, would count it again (log 55). -/
def newStations (own : Nat) (ps : List Peer) (c : CueDef) : List Nat :=
  ((otherMembers own c ++ triggerStations c).dedup).filter fun n => !hasPeer ps n

/-- The PEERS_FULL test passes (R81, R86). -/
def peersFit (own : Nat) (ps : List Peer) (c : CueDef) : Bool :=
  decide (ps.length + (newStations own ps c).length ≤ peerCapacity)

/-- The table after an arming: GROUP for each other member, FOLLOW for the trigger station (R86). -/
def joinPeers (own : Nat) (c : CueDef) (ps : List Peer) : List Peer :=
  let withGroup := (otherMembers own c).foldl (addInterest c.number true false) ps
  (triggerStations c).foldl (addInterest c.number false true) withGroup

/-- The table after a cue's holdings are released: entries left with no interest leave (R87). -/
def releasePeers (cue : Nat) (ps : List Peer) : List Peer :=
  (ps.map fun p => { p with holdings := p.holdings.filter fun h => decide (h.cue ≠ cue) }).filter Peer.interested

/-- The clearance entries of the power-on build: one for each distinct station a rule names (R85). -/
def clearancePeers (S : Setup) : List Peer :=
  (rulesInUse S).foldl (fun ps r => insertPeer (Peer.new r.peer true) ps) []

/-- The table after a STATUS from a station (R88). -/
def updatePeer (n : Nat) (c : PeerContents) (ps : List Peer) : List Peer :=
  ps.map fun p => if p.station = n then { p with contents := some c, age := 0, fresh := .fresh } else p

/-- The freshness that an age gives (R89). -/
def freshnessOfAge (S : Setup) (age : Nat) : Freshness :=
  if S.lostLimit < age then .lost else if S.staleLimit < age then .stale else .fresh

/-- One ageing step of an entry (R89). -/
def agePeer (S : Setup) (p : Peer) : Peer :=
  match p.fresh with
  | .unheard => p
  | .fresh | .stale | .lost =>
    let age := min (p.age + 1) 65535
    { p with age := age, fresh := freshnessOfAge S age }

/-- The stations an ageing step makes LOST from FRESH or STALE, in table order (R90). -/
def newlyLost (S : Setup) (ps : List Peer) : List Nat :=
  (ps.filter fun p =>
    (decide (p.fresh = .fresh) || decide (p.fresh = .stale)) && decide ((agePeer S p).fresh = .lost)).map (·.station)

/-- The table after a line reset's first step: clearance entries become UNHEARD (R92). -/
def unhearClearance (ps : List Peer) : List Peer :=
  ps.map fun p => if p.clearance then { p with fresh := .unheard, age := 0, contents := none } else p

end Sys2Proof.Machine
end

