-- ==== Sys2Proof/Machine/Coupler.lean ====
section
/-! DEFINITION. The group coupler (chapter 6): readiness, member views, pacing, stale members, broken groups. -/

namespace Sys2Proof.Machine

/-- The contents show the cue in the armed list (R95, R97). -/
def showsArmed (c : PeerContents) (cue : Nat) : Bool := c.armed.any fun p => decide (p.1 = cue)

/-- The contents show the cue as the number of the context (R95, R97). -/
def showsContext (c : PeerContents) (cue : Nat) : Bool := decide (c.cue = cue)

/-- A member is ready (R95). -/
def memberReady (cue : Nat) (sig : Check) (p : Option Peer) : Bool :=
  match p with
  | none => false
  | some e =>
    match e.contents with
    | none => false
    | some c =>
      decide (e.fresh = .fresh) && decide (c.axis ≠ .tripped) &&
        ((c.armed.any fun a => decide (a.1 = cue) && decide (a.2 = sig)) ||
          (showsContext c cue && (decide (c.phase = some .starting) || decide (c.phase = some .running))))

/-- A member shows a signature mismatch (R95). -/
def memberMismatch (cue : Nat) (sig : Check) (p : Option Peer) : Bool :=
  match p with
  | none => false
  | some e =>
    match e.contents with
    | none => false
    | some c => decide (e.fresh = .fresh) && c.armed.any fun a => decide (a.1 = cue) && decide (a.2 ≠ sig)

/-- The group's verdict for a record: the reason of a refusal, or none when ready (R96). -/
def groupVerdict (own : Nat) (ps : List Peer) (r : CueRecord) : Option RefuseReason :=
  let members := otherMembers own r.cue
  if members.any fun m => memberMismatch r.cue.number r.sig (findPeer ps m) then some .sigMismatch
  else if members.all fun m => memberReady r.cue.number r.sig (findPeer ps m) then none
  else some .groupNotReady

/-- The initial member views (R94). -/
def initialViews (own : Nat) (ps : List Peer) (r : CueRecord) : List (Nat × MemberView) :=
  (otherMembers own r.cue).map fun m =>
    (m,
      match (findPeer ps m).bind (·.contents) with
      | none => .armed
      | some c => if showsContext c r.cue.number then .cue else .armed)

/-- The own landing condition (R97). -/
def ownLanding (live : Setup) (c : CueDef) (s : Position) : Bool :=
  c.landing && decide (distance s.toNat (mmToNm c.target) ≤ mmToNm live.landingBand)

/-- A member's view after a notice (R97). A member that has left the cue while the own landing condition holds is FINISHED
however its cue ended, TRIPPED as well; the table of R106 has some of these ends break the group (log 59). -/
def nextView (cue : Nat) (landing : Bool) (c : PeerContents) : MemberView → MemberView
  | .armed => if showsContext c cue then .cue else .armed
  | .cue =>
    if !showsContext c cue && !showsArmed c cue && (decide (c.progress = 4096) || landing) then .finished else .cue
  | .finished => .finished

/-- A member breaks the group (R103). -/
def breaksGroup (cue : Nat) (c : PeerContents) : MemberView → Bool
  | .finished => false
  | .cue => decide (c.axis = .tripped) || !showsContext c cue
  | .armed => decide (c.axis = .tripped) || (!showsContext c cue && !showsArmed c cue)

/-- A member's counted progress (R98). -/
def countedProgress (cue : Nat) (view : MemberView) (c : Option PeerContents) : Option Nat :=
  match view, c with
  | .finished, _ => some 4096
  | _, none => none
  | v, some c =>
    if showsContext c cue then
      match c.phase with
      | some .starting => some 0
      | some .running => some c.progress
      | some .ending => some c.progress
      | none => none
    else if decide (v = .armed) && showsArmed c cue then some 0
    else none

/-- The least of a list of counted values (R99). -/
def leastCounted : List (Option Nat) → Option Nat
  | [] => none
  | none :: rest => leastCounted rest
  | some a :: rest =>
    match leastCounted rest with
    | none => some a
    | some b => some (min a b)

/-- The contents of a member's entry. -/
def memberContents (ps : List Peer) (m : Nat) : Option PeerContents := (findPeer ps m).bind (·.contents)

/-- pmin, over the member views of a context (R99). -/
def leastProgress (cue : Nat) (ps : List Peer) (views : List (Nat × MemberView)) : Option Nat :=
  leastCounted (views.map fun v => countedProgress cue v.2 (memberContents ps v.1))

/-- The pacing velocity Vg (R99). -/
def pacingVelocity (vLim skew own : Nat) : Option Nat → Nat
  | none => vLim
  | some pmin =>
    if own ≤ pmin then vLim
    else if skew ≤ own - pmin then 0
    else vLim * (skew - (own - pmin)) / skew

/-- A member is stale: its entry is STALE and its view is not FINISHED (R101). -/
def memberStale (ps : List Peer) (v : Nat × MemberView) : Bool :=
  decide (v.2 ≠ .finished) &&
    match findPeer ps v.1 with
    | none => false
    | some p => decide (p.fresh = .stale)

/-- PACED_STALE (R101). -/
def pacedStaleOf (ps : List Peer) (views : List (Nat × MemberView)) : Bool := views.any (memberStale ps)

/-- The stale report: a stale member's counted progress is at most the own progress (R101). -/
def staleReportOf (cue own : Nat) (ps : List Peer) (views : List (Nat × MemberView)) : Bool :=
  views.any fun v =>
    memberStale ps v &&
      match countedProgress cue v.2 (memberContents ps v.1) with
      | none => false
      | some p => decide (p ≤ own)

end Sys2Proof.Machine
end

