-- ==== Sys2Proof/Machine/Guard.lean ====
section
/-! DEFINITION. The clearance guard (chapter 7): occupancy, rule activity and the envelope. -/

namespace Sys2Proof.Machine

/-- A peer's occupancy under a rule, µm: the span of its three positions widened by the margin, or the whole travel
for an entry that is not FRESH (R111, R112). A peer with no entry, which R84 and R91 leave no reader to ask for, is taken as
one that is not FRESH (log 61). -/
def occupancy (r : ClearanceRule) (p : Option Peer) : Int × Int :=
  match p with
  | none => (0, 40000000)
  | some e =>
    match e.fresh, e.contents with
    | .fresh, some c =>
      ((min c.setPoint (min c.measured c.stopPoint) : Nat) - (r.margin * 1000 : Nat),
        (max c.setPoint (max c.measured c.stopPoint) : Nat) + (r.margin * 1000 : Nat))
    | _, _ => (0, 40000000)

/-- A rule is active: the occupancy meets the peer band, as closed intervals (R113). -/
def ruleActive (ps : List Peer) (r : ClearanceRule) : Bool :=
  let occ := occupancy r (findPeer ps r.peer)
  decide (occ.1 ≤ (r.peerHigh * 1000 : Nat)) && decide (((r.peerLow * 1000 : Nat) : Int) ≤ occ.2)

/-- The low end of the widened own band, nm, signed (R114). -/
def ownBandLow (r : ClearanceRule) : Int := ((r.ownLow : Int) - r.margin) * 1000000

/-- The high end of the widened own band, nm (R114). -/
def ownBandHigh (r : ClearanceRule) : Int := ((r.ownHigh : Int) + r.margin) * 1000000

/-- A cue that started below the widened band, its target above the band, has its set-point on the low end: a part that
follows R117 holds it at the widened edge (log 50). -/
def heldFromBelow (r : ClearanceRule) (s : Int) (target start : Option Int) : Bool :=
  decide (s = ownBandLow r) && start.any (fun a => decide (a < ownBandLow r)) &&
    target.any (fun t => decide (ownBandHigh r < t)) && Config.edgeHolds

/-- A cue that started above the widened band, its target below the band, has its set-point on the high end: a part that
follows R117 holds it at the widened edge (log 50). -/
def heldFromAbove (r : ClearanceRule) (s : Int) (target start : Option Int) : Bool :=
  decide (s = ownBandHigh r) && start.any (fun a => decide (ownBandHigh r < a)) &&
    target.any (fun t => decide (t < ownBandLow r)) && Config.edgeHolds

/-- What an active rule contributes to the envelope (R114, R115), by the target and the start position of the cue, where
there is one. The ends of the widened band count as inside (R115); whether they do for a cue on its way from outside, which
R117 and steps 2 to 4 of 7.8 hold at the widened edge, is a free choice (log 50). -/
def contribute (r : ClearanceRule) (s : Int) (target start : Option Int) (env : Int × Int) : Int × Int :=
  if s < ownBandLow r ∨ heldFromBelow r s target start = true then (env.1, min env.2 (ownBandLow r))
  else if ownBandHigh r < s ∨ heldFromAbove r s target start = true then (max env.1 (ownBandHigh r), env.2)
  else
    match target with
    | none => (max env.1 s, min env.2 s)
    | some t =>
      if t < ownBandLow r then (max env.1 t, min env.2 s)
      else if ownBandHigh r < t then (max env.1 s, min env.2 t)
      else (max env.1 s, min env.2 s)

/-- The soft-limit interval, nm (R114). -/
def softEnvelope (S : Setup) : Int × Int := (mmToNm S.softLow, mmToNm S.softHigh)

/-- The envelope of the active rules (R114). -/
def envelopeOf (S : Setup) (ps : List Peer) (s : Int) (target start : Option Int) : Int × Int :=
  (rulesInUse S).foldl (fun env r => if ruleActive ps r then contribute r s target start env else env) (softEnvelope S)

/-- The active set: one entry per rule (R110, R113). -/
def activeSetOf (S : Setup) (ps : List Peer) : List Bool := (rulesInUse S).map (ruleActive ps)

/-- The target of the cue context, nm (R115). -/
def contextTarget (s : State) : Option Int := s.ctl.ctx.map fun x => ((mmToNm x.record.cue.target : Nat) : Int)

/-- The start position s0 of the cue context, nm, once its move is fixed (R25, R117). -/
def contextStart (s : State) : Option Int := s.ctl.ctx.bind fun x => x.move.map fun m => (m.s0 : Int)

/-- One computation of the guard (R110). -/
def guardCompute (s : State) : State :=
  s.onGuard fun g =>
    let env := envelopeOf s.store.live s.peers s.gen.s.toNat (contextTarget s) (contextStart s)
    { g with active := activeSetOf s.store.live s.peers, lower := env.1, upper := env.2 }

end Sys2Proof.Machine
end

