-- ==== Sys2Proof/Machine/Ops.lean ====
section
/-! DEFINITION. The shared operations of the axis sequencer, cue control and supervision: changes of axis state,
ends of cues, trips, stops, recoveries, releases and starts. Each is total; a command's meaning is built from them. -/

namespace Sys2Proof.Machine

/-! ## Records, lookups, queues -/

/-- Cue control records an event; it replaces the whole record (R78). -/
def recordEvent (e : CueEvent) (s : State) : State := s.onCtl fun c => { c with lastEvent := some e }

/-- The record of a number in a table (R50). -/
def findCue (t : List CueRecord) (n : Nat) : Option CueRecord := t.find? fun r => decide (r.cue.number = n)

/-- The follow part of an armed cue's record (R48). -/
def followOf (s : State) (n : Nat) : Option FollowPart := (findCue s.table n).bind (·.cue.follow)

/-- The delay of an armed follow cue's record (R48). -/
def delayOf (s : State) (n : Nat) : Nat :=
  match followOf s n with
  | none => 0
  | some f => f.delay

/-- A changed cue context. -/
def onCtx (f : CueContext → CueContext) (s : State) : State := s.onCtl fun c => { c with ctx := c.ctx.map f }

/-- A changed homing run. -/
def onRun (f : HomingRun → HomingRun) (s : State) : State := s.onCtl fun c => { c with homing := c.homing.map f }

/-- Changed homing inputs. -/
def onHoming (f : HomingInputs → HomingInputs) (s : State) : State :=
  s.onGen fun g => { g with homing := g.homing.map f }

/-- A mark handed to the line port: queued, or discarded with MARK_LOST set when the queue is full (R162). -/
def queueMark (cue : Nat) (s : State) (i : Nat) : State :=
  s.onLine fun l =>
    if l.marks.length < 4 then { l with marks := l.marks ++ [⟨0, none, ⟨cue, i⟩⟩] } else { l with markLost := true }

/-- An answer or a reservation at the end of the REPLY queue (R163). -/
def queueReply (b : ReplyBody) (s : State) : State := s.onLine fun l => { l with replies := l.replies ++ [⟨0, none, b⟩] }

/-- The REPLY to a request (R163). -/
def answer (h : Hdr) (kind : RequestKind) (result : ReplyResult) (detail : Nat) (s : State) : State :=
  queueReply (.reply ⟨h.sender, kind, h.seq, result, detail⟩) s

/-! ## Duty -/

/-- A forced duty: both registers at once (R135). -/
def forceDuty (s : State) : State := s.onMeas fun m => { m with pendingDuty := 2048, activeDuty := 2048 }

/-- A duty written to the output; 2048 while DRIVE_EN is deasserted (R134, R135). -/
def writeDuty (d : Nat) (s : State) : State := s.onMeas fun m => { m with pendingDuty := if driveEn s then d else 2048 }

/-- What follows a change of the outputs: the forced duty where the source is 2048 or the drive is off, the
ready-seen flag cleared with the drive off (R2, R135, R142). -/
def followDrive (s : State) : State :=
  let forced := if dutyAtZero s then forceDuty s else s
  if driveEn s then forced else forced.onSup fun p => { p with readySeen := false }

/-! ## Recovery dwell -/

/-- The dwell runs in RECOVERING while every condition of the recovery set is absent; it starts from its full length
(R146). -/
def dwellFollow (s : State) : State :=
  s.onSup fun p =>
    { p with recovery := p.recovery.map fun r =>
        if s.seq.axis = .recovering ∧ (r.conds.all fun c => !p.present.contains c) = true then
          { r with dwell := some (r.dwell.getD s.store.live.dwell) }
        else { r with dwell := none } }

/-! ## Change of axis state -/

/-- The sequencer in a new axis state: its timers stop, and the start request ends outside WAKING and RELEASING (R1). -/
def seqIn (a : AxisState) (q : Sequencer) : Sequencer :=
  { q with
    axis := a
    startReq := if a = .waking ∨ a = .releasing then q.startReq else .none
    wake := none
    brake := none
    hold := none
    rest := none }

/-- The hold time is 0 on entering MOVING (R71). -/
def contextIn (a : AxisState) (c : CueControl) : CueControl :=
  if a = .moving then { c with ctx := c.ctx.map fun x => { x with holdTime := 0 } } else c

/-- SLACK is absent outside MOVING (R140), FOLLOWING with BRAKE_REL deasserted (R139, log 15). -/
def presenceIn (a : AxisState) (p : Supervision) : Supervision :=
  { p with present := p.present.filter fun c =>
      !(decide (c = .slack) && decide (a ≠ .moving)) && !(decide (c = .following) && !brakeRelIn a) }

/-- An ARMED capture is disarmed on leaving HOMING, any capture on a trip (R126). -/
def captureIn (left a : AxisState) (m : Measure) : Measure :=
  if a = .tripped then { m with capture := .disarmed }
  else if left = .homing ∧ a ≠ .homing ∧ m.capture = .armed then { m with capture := .disarmed }
  else m

/-- A change of axis state is handed to the line port (R1, R161, log 12). -/
def noteChange (l : LinePort) : LinePort := { l with statusDue := l.statusDue + 1 }

/-- A change of axis state (R1, R2), with what every block makes of it. -/
def setAxis (a : AxisState) (s : State) : State :=
  let t := ((s.onSeq (seqIn a)).onCtl (contextIn a)).onSup (presenceIn a)
  dwellFollow (followDrive ((t.onMeas (captureIn s.seq.axis a)).onLine noteChange))

/-! ## Disarming and ends of cues -/

/-- A cue's holdings are released (R87). -/
def releaseCue (n : Nat) (s : State) : State := s.onPeers (releasePeers n)

/-- A disarming: the entry leaves, its interests are released, DISARMED is recorded (R63). -/
def disarm (reason : DisarmReason) (s : State) (n : Nat) : State :=
  let s := s.onCtl fun c => { c with armed := c.armed.filter fun a => decide (a.cue ≠ n) }
  recordEvent (.disarmed n reason) (releaseCue n s)

/-- Every armed cue disarmed, oldest first (R63). -/
def disarmAll (reason : DisarmReason) (s : State) : State := (s.ctl.armed.map (·.cue)).foldl (disarm reason) s

/-- The numbers of the PENDING follow cues, oldest first (R77). -/
def pendingCues (s : State) : List Nat :=
  (s.ctl.armed.filter fun a => decide (a.trigger = some .pending)).map (·.cue)

/-- The outcome lets PENDING follow cues run on (R77). -/
def runsOn : CueOutcome → Bool
  | .arrived | .landed => true
  | .abandoned | .holdLimit | .peerLost | .groupBroken | .fault _ | .estop | .lineReset => false

/-- PENDING follow cues become DELAYING with their full delay, or are disarmed CHAIN_BROKEN, by the outcome
(R77). -/
def moveChains (o : CueOutcome) (s : State) : State :=
  if runsOn o then
    s.onCtl fun c =>
      { c with armed := c.armed.map fun a =>
          if a.trigger = some .pending then { a with trigger := some (.delaying (delayOf s a.cue)) } else a }
  else (pendingCues s).foldl (disarm .chainBroken) s

/-- The remaining distance of an end, mm (R73). -/
def remainingMm (s : State) (x : CueContext) : Nat := distance s.gen.s.toNat (mmToNm x.record.cue.target) / 1000000

/-- Steps 2 to 4 of an end: ENDED is recorded, the context is removed with its fired marks and its recovery record,
its interests are released (R73, R145). -/
def removeContext (x : CueContext) (o : CueOutcome) (remaining : Nat) (s : State) : State :=
  let s := recordEvent (.ended x.record.cue.number o remaining) s
  let s := s.onCtl fun c => { c with ctx := none }
  let s := s.onGen fun g => { g with fired := [] }
  let s := s.onSup fun p => { p with recovery := none }
  releaseCue x.record.cue.number s

/-- The running cue ends with an outcome, the set-point where it stands (R73). -/
def endCue (o : CueOutcome) (s : State) : State :=
  match s.ctl.ctx with
  | none => s
  | some x => moveChains o (removeContext x o (remainingMm s x) s)

/-! ## Trips -/

/-- The outcome with which a trip ends the cue: ESTOP, or FAULT naming the condition that tripped it first (R74,
R79, R143). -/
def tripOutcome (x : CueContext) : CueOutcome → CueOutcome
  | .fault c =>
    match x.endReason with
    | some (.fault first) => .fault first
    | _ => .fault c
  | o => o

/-- A homing request or move ends and is recorded (R129). -/
def closeHoming (r : HomingResult) (s : State) : State :=
  let s := recordEvent (.homingEnded r) s
  let s := s.onCtl fun c => { c with homing := none }
  s.onGen fun g => { g with homing := none }

/-- The cue context ends at a trip (R79). -/
def tripCue (o : CueOutcome) (s : State) : State :=
  match s.ctl.ctx with
  | none => s
  | some x => removeContext x (tripOutcome x o) (remainingMm s x) s

/-- A homing request or move ends at a trip (R79, R129): HOME_MISS where that condition was raised in it, an abort taken
before or not (log 51), else HOME_ABORTED. -/
def tripHoming (s : State) : State :=
  match s.ctl.homing with
  | none => s
  | some run => closeHoming (if run.missed then .homeMiss else .homeAborted) s

/-- Entry to TRIPPED: the cue ends without moving chains, every armed cue is disarmed, any homing ends (R79). -/
def enterTripped (o : CueOutcome) (s : State) : State :=
  tripHoming (disarmAll .tripped (tripCue o (setAxis .tripped s)))

/-- A condition joins the latched set. -/
def latch (c : Condition) (s : State) : State := s.onSup fun p => { p with latched := insertCondition c p.latched }

/-- A DROP demand, its condition latched (R18). -/
def dropDemand (c : Condition) (s : State) : State :=
  match s.seq.axis with
  | .unaddressed => s
  | .tripped => followDrive s
  | _ => enterTripped (.fault c) s

/-! ## Setting the brake -/

/-- The condition a confirmed set toward TRIPPED names: that of the end reason, else the first latched. -/
def settingOutcome (s : State) : CueOutcome :=
  match s.sup.latched with
  | [] => .estop
  | c :: _ => .fault c

/-- The brake set is confirmed: the axis enters the setting destination (R16). -/
def confirmSet (s : State) : State :=
  match s.seq.dest with
  | .parked => setAxis .parked s
  | .suspended => setAxis .suspended s
  | .recovering => setAxis .recovering s
  | .tripped => enterTripped (settingOutcome s) s

/-- The brake is set toward a destination; a BRAKE_FB that already reads set confirms at once (R16). -/
def enterSetting (d : SetDest) (s : State) : State :=
  let s := setAxis .setting s
  let s := s.onSeq fun q => { q with dest := d, brake := some s.store.live.brakeTime }
  if s.inp.brakeReleased then s else confirmSet s

/-- The axis enters STOPPING (R14, R19). -/
def enterStopping (k : StopKind) (d : SetDest) (s : State) : State :=
  (setAxis .stopping s).onSeq fun q => { q with stopKind := k, dest := d }

/-- The reason with which a homing move that ends at its entry to SETTING is recorded (R129). -/
def homingResult (s : State) (run : HomingRun) : HomingResult :=
  if run.aborted then .homeAborted
  else if run.referenced then .homed
  else
    match s.meas.capture with
    | .held _ => .homed
    | .disarmed => .homeAborted
    | .armed => .homeAborted

/-- A homing move or request that ends other than by a trip is recorded (R129). -/
def recordHoming (s : State) : State :=
  match s.ctl.homing with
  | none => s.onGen fun g => { g with homing := none }
  | some run => closeHoming (homingResult s run) s

/-- A homing move or request ends as aborted. -/
def abandonHoming (s : State) : State := recordHoming (onRun (fun r => { r with aborted := true }) s)

/-! ## FAST demands -/

/-- A latched condition gives the cue its end reason, unless an earlier one has (R70, R74, R143). -/
def failContext (c : Condition) (s : State) : State :=
  onCtx (fun x =>
    { x with phase := .ending, endReason := match x.endReason with
      | some (.fault first) => some (.fault first)
      | _ => some (.fault c) }) s

/-- A FAST demand with class LATCH, its condition latched (R19). -/
def fastLatch (c : Condition) (s : State) : State :=
  match s.seq.axis with
  | .unaddressed => s
  | .tripped => s
  | .moving => enterStopping .fast .tripped (failContext c s)
  | .held => enterStopping .fast .tripped (failContext c s)
  | .homing => enterStopping .fast .tripped (failContext c s)
  | .stopping => (failContext c s).onSeq fun q => { q with stopKind := .fast, dest := .tripped }
  | .releasing => enterSetting .tripped (failContext c s)
  | .setting => (failContext c s).onSeq fun q => { q with dest := .tripped }
  | .suspended => enterTripped (.fault c) s
  | .recovering => enterTripped (.fault c) s
  | .waking => enterTripped (.fault c) s
  | .parked => enterTripped (.fault c) s
  | .rest => enterTripped (.fault c) s

/-- A FAST demand with class RECOVER while a cue context exists (R19). -/
def fastRecoverCue (s : State) : State :=
  match s.seq.axis with
  | .moving => enterStopping .fast .recovering s
  | .held => enterStopping .fast .recovering s
  | .stopping => s.onSeq fun q => { q with stopKind := .fast }
  | .releasing => enterSetting .recovering s
  | .setting => s.onSeq fun q => { q with dest := if q.dest = .suspended then .recovering else q.dest }
  | .suspended => setAxis .recovering s
  | .waking => s.onSeq fun q => { q with startReq := .recover }
  | .unaddressed | .rest | .parked | .recovering | .homing | .tripped => s

/-- A FAST demand with class RECOVER with no cue context (R19). -/
def fastRecoverIdle (s : State) : State :=
  match s.seq.axis with
  | .homing => enterStopping .fast .parked (onRun (fun r => { r with aborted := true }) s)
  | .stopping => s.onSeq fun q => { q with stopKind := .fast }
  | .releasing => enterSetting .parked (abandonHoming s)
  | .unaddressed | .rest | .waking | .parked | .moving | .held | .suspended | .setting | .recovering | .tripped => s

/-! ## Occurrences -/

/-- R19 turns a RECOVER occurrence into a recovery in this state (R145). -/
def beginsRecovery (s : State) : Bool :=
  match s.seq.axis with
  | .moving | .held | .releasing | .waking | .suspended => true
  | .setting => decide (s.seq.dest = .suspended)
  | .unaddressed | .rest | .parked | .stopping | .recovering | .homing | .tripped => false

/-- An occurrence under class RECOVER (R144, R145). -/
def recoverOccurrence (c : Condition) (s : State) : State :=
  match s.ctl.ctx with
  | none => fastRecoverIdle s
  | some x =>
    match s.sup.recovery with
    | some _ =>
      fastRecoverCue (dwellFollow (s.onSup fun p =>
        { p with recovery := p.recovery.map fun r => { r with conds := insertCondition c r.conds } }))
    | none =>
      if beginsRecovery s then
        if x.recoveries < 3 then
          let s := onCtx (fun y => { y with recoveries := y.recoveries + 1 }) s
          fastRecoverCue (s.onSup fun p => { p with recovery := some ⟨[c], none, 0⟩ })
        else fastLatch c (latch c s)
      else fastRecoverCue s

/-- The demand of a latched condition's category (R143). -/
def latchDemand (c : Condition) (s : State) : State := if c.isDrop then dropDemand c s else fastLatch c s

/-- The response to an occurrence, by class (R143, R145, R148). -/
def respond (c : Condition) (s : State) : State :=
  match classOf s c with
  | .latch => latchDemand c (latch c s)
  | .recover => recoverOccurrence c s
  | .note => s
  | .off => s

/-- A condition becomes present. -/
def markPresent (c : Condition) (s : State) : State :=
  dwellFollow (s.onSup fun p => { p with present := insertCondition c p.present })

/-- A condition becomes absent. -/
def markAbsent (c : Condition) (s : State) : State :=
  dwellFollow (s.onSup fun p => { p with present := removeCondition c p.present })

/-- A detection is evaluated: the passage from absent to present is an occurrence (9.3). -/
def evaluate (c : Condition) (detected : Bool) (s : State) : State :=
  if detected then if isPresent s c then s else respond c (markPresent c s) else markAbsent c s

/-! ## Controlled ends -/

/-- The phase becomes ENDING with a reason (R70, R74). -/
def setEnding (o : CueOutcome) (s : State) : State :=
  onCtx (fun x => { x with phase := .ending, endReason := some o }) s

/-- A controlled end demand on a context in STARTING or RUNNING, by the state in which it is taken (R14). -/
def controlledPath (o : CueOutcome) (s : State) : State :=
  match s.seq.axis with
  | .waking => (endCue o s).onSeq fun q => { q with startReq := .none }
  | .releasing => enterSetting .parked (endCue o s)
  | .moving => enterStopping .controlled .parked (setEnding o s)
  | .held => enterSetting .parked (endCue o s)
  | .suspended => setAxis .parked (endCue o s)
  | .recovering => setAxis .parked (endCue o s)
  | .setting =>
    if s.seq.dest = .suspended ∨ s.seq.dest = .recovering then
      (endCue o s).onSeq fun q => { q with dest := .parked }
    else setEnding o s
  | .stopping =>
    (setEnding o s).onSeq fun q => { q with dest := if q.dest = .recovering then .parked else q.dest }
  | .unaddressed | .rest | .parked | .homing | .tripped => setEnding o s

/-- A controlled end demand; it changes nothing in ENDING or without a cue (R74). -/
def controlledEnd (o : CueOutcome) (s : State) : State :=
  match s.ctl.ctx with
  | none => s
  | some x => if endable x then controlledPath o s else s

/-! ## Marks and retakes -/

/-- The marks of the cue crossed by a change of s fire: they join the fired-marks set and go to the line port (R41,
R162). -/
def fireMarks (old : Position) (s : State) : State :=
  match s.ctl.ctx with
  | none => s
  | some x =>
    match x.move with
    | none => s
    | some m =>
      let new := firedBy m.dir old s.gen.s x.record.cue.marks s.gen.fired
      let s := s.onGen fun g => { g with fired := joinFired g.fired new }
      new.foldl (queueMark x.record.cue.number) s

/-- The set-point of a release: the measured position, not beyond the target of a move already fixed (R8, R25). -/
def retakePoint (s : State) : Position :=
  match s.ctl.ctx with
  | none => s.meas.measured
  | some x =>
    match x.move with
    | none => s.meas.measured
    | some m => retakeFor m s.meas.measured

/-- The set-point is retaken at velocity 0, and the marks passed by the retake fire (R8, R41). -/
def retake (s : State) : State :=
  let old := s.gen.s
  fireMarks old (s.onGen fun g => { g with s := retakePoint s, v := 0 })

/-! ## Groups -/

/-- The group-broken test of one member, in phase RUNNING (R103). -/
def groupTest (s : State) (member : Nat) : State :=
  match s.ctl.ctx with
  | none => s
  | some x =>
    match x.views.find? fun v => decide (v.1 = member), memberContents s.peers member with
    | some v, some c =>
      if x.phase = .running ∧ breaksGroup x.record.cue.number c v.2 = true then controlledEnd .groupBroken s else s
    | _, _ => s

/-- The test of every member at RUNNING, in member-list order (R103). -/
def groupTestAll (s : State) : State :=
  match s.ctl.ctx with
  | none => s
  | some x => (x.views.map (·.1)).foldl groupTest s

/-! ## Releases -/

/-- The move of a STARTING cue is fixed and its phase becomes RUNNING; the set-point is retaken (R9, R25, R70). -/
def fixStart (x : CueContext) (s : State) : State :=
  let old := s.gen.s
  let move := fixMove s.store.live x.record.cue s.meas.measured.toNat
  let s := onCtx (fun y => { y with move := some move, phase := .running }) s
  fireMarks old (s.onGen fun g => { g with s := s.meas.measured, v := 0 })

/-- The homing inputs at entry to HOMING (R37). -/
def homingInputs (live : Setup) (s : Position) : HomingInputs :=
  ⟨live.homeDir, s.toNat, live.homeSpeed * 1000, live.homeAccel, mmToNm live.homeTravel, .search⟩

/-- Entry to HOMING: the inputs are set up, the register is armed, the homing notice is clear (R37, R120, R126). -/
def enterHoming (s : State) : State :=
  let s := setAxis .homing s
  let s := s.onMeas fun m => { m with capture := .armed }
  let s := s.onGuard fun g => { g with notice := false }
  let s := onRun (fun r => { r with referenced := false }) s
  s.onGen fun g => { g with homing := some (homingInputs s.store.live g.s) }

/-- The release completes, by what it was for (R9). -/
def completeRelease (s : State) : State :=
  match s.ctl.ctx with
  | some x =>
    if x.phase = .starting then groupTestAll (setAxis .moving (fixStart x s)) else setAxis .moving s
  | none => if s.seq.startReq = .home then enterHoming s else s

/-- The RECOVER-class conditions present, ascending: each occurs at the beginning of a release (R144). -/
def releaseOccurrences (s : State) : List Condition :=
  conditionsWhere fun c => isPresent s c && decide (classOf s c = .recover)

/-- A release begins: the set-point is retaken, BRAKE_REL asserted, the brake timer started; the conditions are
tested; a BRAKE_FB that already reads released completes it (R8, R9, R144, log 16). -/
def beginRelease (req : StartRequest) (s : State) : State :=
  let s := setAxis .releasing (retake s)
  let s := s.onSeq fun q => { q with startReq := req, brake := some s.store.live.brakeTime }
  let s := (releaseOccurrences s).foldl (fun t c => recoverOccurrence c t) s
  if s.seq.axis = .releasing ∧ s.inp.brakeReleased = true then completeRelease s else s

/-! ## Waking -/

/-- DRIVE_READY is found asserted while DRIVE_EN is asserted (R142). -/
def seeReady (s : State) : State := if driveEn s then s.onSup fun p => { p with readySeen := true } else s

/-- The wake completes, by the start request (R7). -/
def completeWake (s : State) : State :=
  let req := s.seq.startReq
  let s := setAxis .parked (seeReady s)
  match req with
  | .none => s
  | .cue => beginRelease .cue s
  | .home => beginRelease .home s
  | .recover => setAxis .recovering s

/-- The sequencer enters WAKING; a DRIVE_READY already asserted completes the wake (R6, R7). -/
def enterWaking (req : StartRequest) (s : State) : State :=
  let s := setAxis .waking s
  let s := s.onSeq fun q => { q with startReq := req, wake := some s.store.live.wakeTimeout }
  if s.inp.driveReady then completeWake s else s

/-- The sequencer is asked to start a cue or a homing move (R6, R68, R125, log 21). -/
def requestStart (req : StartRequest) (s : State) : State :=
  match s.seq.axis with
  | .rest => enterWaking req s
  | .waking => s.onSeq fun q => { q with startReq := req }
  | .parked => beginRelease req s
  | .unaddressed | .releasing | .moving | .held | .suspended | .stopping | .setting | .recovering | .homing
  | .tripped => s

/-! ## Starting a cue -/

/-- A cue context at its creation (R68, R94). -/
def newContext (own : Nat) (ps : List Peer) (r : CueRecord) : CueContext :=
  ⟨r, none, .starting, 0, 0, none, initialViews own ps r, false, false⟩

/-- The target lies within the in-position band of the measured position (R68). -/
def withinBand (s : State) (r : CueRecord) : Bool :=
  decide (distance s.meas.measured.toNat (mmToNm r.cue.target) ≤ s.store.live.inPosition * 1000)

/-- A cue that ends at its start within the in-position band: ARRIVED, remaining 0, progress 4096 (R68, R73). -/
def endInBand (s : State) : State :=
  match s.ctl.ctx with
  | none => s
  | some x => moveChains .arrived (removeContext x .arrived 0 (s.onGen fun g => { g with progress := 4096 }))

/-- A cue starts (R68). -/
def startCue (r : CueRecord) (s : State) : State :=
  let s := s.onCtl fun c =>
    { c with
      armed := c.armed.filter fun a => decide (a.cue ≠ r.cue.number)
      ctx := some (newContext s.station s.peers r) }
  let s := s.onGen fun g => { g with progress := 0, fired := [] }
  let s := s.onLine fun l => { l with markLost := false }
  let s := recordEvent (.started r.cue.number) s
  if withinBand s r then endInBand s else requestStart .cue s

/-- The tests of a start from the BUSY test on, as a GO and a follow-delay expiry apply them: the reason of a refusal,
or none (R67, R76). -/
def startRefusal (s : State) (r : CueRecord) : Option RefuseReason :=
  if !startAllowed s then some .busy
  else if !s.meas.referenced then some .notHomed
  else if !s.ctl.enableFresh then some .noEnable
  else groupVerdict s.station s.peers r

/-- The trigger of an armed cue set. -/
def setTrigger (n : Nat) (t : Trigger) (s : State) : State :=
  s.onCtl fun c =>
    { c with armed := c.armed.map fun a => if a.cue = n ∧ a.trigger.isSome = true then { a with trigger := some t } else a }

/-- A follow delay expires: the cue starts, or REFUSED is recorded and it waits again (R76). -/
def expireDelay (n : Nat) (s : State) : State :=
  match findCue s.table n with
  | none => s
  | some r =>
    match startRefusal s r with
    | none => startCue r s
    | some reason => recordEvent (.refused n reason) (setTrigger n .waiting s)

/-- The armed cue's delay stands at 0. -/
def delayDone (s : State) (n : Nat) : Bool :=
  s.ctl.armed.any fun a => decide (a.cue = n) && decide (a.trigger = some (.delaying 0))

/-- One cue's delay of 0 expires as it becomes DELAYING (R76). -/
def drainDelay (s : State) (n : Nat) : State := if delayDone s n then expireDelay n s else s

/-- Delays of 0 that begin together expire one at a time, oldest first (R76). -/
def drainDelays (s : State) : State := (s.ctl.armed.map (·.cue)).foldl drainDelay s

/-! ## Enable and homing -/

/-- A homing request pending or running meets a loss of enable (R15, R66): dropped in WAKING or RELEASING, the
homing phase STOP in HOMING. -/
def loseHoming (s : State) : State :=
  match s.seq.axis with
  | .waking =>
    if s.seq.startReq = .home then (abandonHoming s).onSeq fun q => { q with startReq := .none } else s
  | .releasing => if s.seq.startReq = .home then enterSetting .parked (abandonHoming s) else s
  | .homing => onRun (fun r => { r with aborted := true }) (onHoming (fun h => { h with phase := .stop }) s)
  | .stopping => onRun (fun r => { r with aborted := true }) s
  | .unaddressed | .rest | .parked | .moving | .held | .suspended | .setting | .recovering | .tripped => s

/-- Enable becomes not fresh and the lapse timer stops (R66, R80). -/
def loseEnable (s : State) : State := loseHoming (s.onCtl fun c => { c with enableFresh := false, lapse := none })

/-! ## Ends of stops -/

/-- The outcome an ENDING cue ends with (R74). -/
def reasonOf (x : CueContext) : CueOutcome := x.endReason.getD .abandoned

/-- A controlled stop ends: the cue ends with its reason, then the brake is set (R14). -/
def endControlledStop (s : State) : State :=
  match s.ctl.ctx with
  | none => enterSetting s.seq.dest s
  | some x => enterSetting s.seq.dest (drainDelays (endCue (reasonOf x) s))

/-- A fast stop ends (R19): a cue that is ending other than by a trip ends with its reason (R74, R145), a homing move
not bound for TRIPPED is recorded (R129), and the brake is set toward the destination. -/
def endFastStop (s : State) : State :=
  if s.seq.dest = .tripped then enterSetting .tripped (s.onGen fun g => { g with homing := none })
  else
    let t :=
      match s.ctl.ctx with
      | none => recordHoming s
      | some x => if x.phase = .ending then drainDelays (endCue (reasonOf x) s) else s
    enterSetting s.seq.dest t

/-- An arrival: the cue ends ARRIVED, then the brake is set toward PARKED (R13). -/
def arrive (s : State) : State := enterSetting .parked (drainDelays (endCue .arrived s))

/-- A recovery is refused: its present members are latched and the first is named, or with none the cue ends
HOLD_LIMIT (R71, R147). -/
def refuseRecovery (s : State) : State :=
  match s.sup.recovery with
  | none => controlledEnd .holdLimit s
  | some r =>
    match r.conds.filter (isPresent s) with
    | [] => controlledEnd .holdLimit s
    | c :: rest =>
      fastLatch c (((c :: rest).foldl (fun t d => latch d t) s).onSup fun p => { p with recovery := none })

end Sys2Proof.Machine
end

