-- ==== Sys2Proof/Machine/Line.lean ====
section
/-! DEFINITION. The transmit side of the line port (chapter 10): building STATUS and ANNOUNCE, the byte layouts of the
frames sent, the sending order, attempts; and what every command that can change the axis ends with. -/

namespace Sys2Proof.Machine

/-! ## STATUS -/

/-- The armed pairs of a STATUS: cue number and signature, in list order (R61). -/
def armedPairs (s : State) : List (Nat × Check) :=
  s.ctl.armed.map fun a =>
    (a.cue,
      match findCue s.table a.cue with
      | none => 0
      | some r => r.sig)

/-- The fields of a STATUS built now (R161). -/
def statusOf (s : State) : Status where
  axis := s.seq.axis
  referenced := s.meas.referenced
  enableFresh := s.ctl.enableFresh
  overrun := s.gen.overrun
  pacedStale := reportedPaced s
  markLost := s.line.markLost
  cue := runningCue s
  phase := reportedPhase s
  progress := s.gen.progress
  setPoint := s.gen.pub.setPoint
  measured := s.meas.measured.toNat / 1000
  stopPoint := s.gen.pub.stopPoint
  velocity := s.gen.pub.velocity
  filtered := s.meas.filtered
  override := s.ctl.override
  enableCount := s.ctl.enableCount
  active := s.guard.active
  armed := armedPairs s
  lastEvent := s.ctl.lastEvent
  faults := faultSummary s

/-- An attempt whose frame a newer one replaces in its slot. -/
def supersede (store : TxStore) (a : Option Attempt) : Option Attempt :=
  a.map fun t => if t.store = store then { t with superseded := true } else t

/-- A STATUS is built: it replaces the one in the slot and takes its attempt count, the status timer restarts, the
overrun latch clears (R31, R156, R161). An UNADDRESSED part builds none (log 31). -/
def buildStatus (s : State) : State :=
  if addressed s then
    let body := statusOf s
    let s := s.onLine fun l =>
      { l with
        status := some ⟨(l.status.map (·.attempts)).getD 0, none, body⟩
        timer := some s.store.live.statusInterval
        attempt := supersede .status l.attempt }
    s.onGen fun g => { g with overrun := false }
  else s

/-- An ANNOUNCE is built into its slot, replacing any unsent one (R164, R171, R172). -/
def buildAnnounce (cause : AnnounceCause) (s : State) : State :=
  if addressed s then
    s.onLine fun l =>
      { l with
        announce := some ⟨0, none, ⟨cause, s.store.revision, s.table.length, s.store.cueState⟩⟩
        attempt := supersede .announce l.attempt }
  else s

/-- The rest timer runs while its three conditions hold, and starts when they become true together; a count of 0
never starts it (R5). -/
def restFollow (s : State) : State :=
  s.onSeq fun q =>
    { q with rest :=
        if restConditions s then
          if s.store.live.restCount = 0 then none else some (q.rest.getD (s.store.live.restCount * 5000))
        else none }

/-- A STATUS for each change of axis state that the command made, and for a line reset, built when it ends: a second one
is built after the first has cleared the overrun latch (R1, R31, R161, log 12). -/
def statusIfDue (s : State) : State :=
  (Nat.iterate buildStatus s.line.statusDue s).onLine fun l => { l with statusDue := 0 }

/-- What ends every command that can change the axis state, the armed list or the cue context. -/
def finish (s : State) : State := statusIfDue (restFollow s)

/-! ## Byte layouts of the frames sent -/

/-- A bit of a flags byte. -/
def flagBit (b : Bool) (i : Nat) : Byte := if b then BitVec.ofNat 8 (2 ^ i) else 0

/-- A four-byte word, open where it does not fit (log 10). -/
def word32 (n : Nat) : BitVec 32 := if n < 4294967296 then BitVec.ofNat 32 n else Config.statusWordBeyond n

/-- A signed four-byte word, two's complement, open where it does not fit (R165, log 10). -/
def signed32 (n : Int) : BitVec 32 :=
  if -2147483648 ≤ n ∧ n < 2147483648 then BitVec.ofInt 32 n else Config.statusWordBeyond n

/-- A two-byte field, open where it does not fit (log 10). -/
def half16 (n : Nat) : BitVec 16 := if n < 65536 then BitVec.ofNat 16 n else Config.statusHalfBeyond n

/-- The flags byte of a STATUS (R165). Bits 6 and 7, to which the spec gives no meaning, are 0 (log 60). -/
def statusFlags (st : Status) : Byte :=
  flagBit st.referenced 0 ||| flagBit st.enableFresh 1 ||| flagBit st.overrun 2 ||| flagBit st.pacedStale 3 |||
    flagBit st.markLost 4 ||| flagBit st.filtered.isSome 5

/-- The active set byte: bit n - 1 for rule n (R165). -/
def activeByte : List Bool → Nat → Byte
  | [], _ => 0
  | b :: rest, i => flagBit b i ||| activeByte rest (i + 1)

/-- The reason code of a disarming (R165). -/
def DisarmReason.code : DisarmReason → Nat
  | .window => 1
  | .cancel => 2
  | .chainBroken => 3
  | .tripped => 4
  | .lineReset => 5

/-- The reason code of a refusal (R165). -/
def RefuseReason.code : RefuseReason → Nat
  | .tripped => 1
  | .noCue => 2
  | .runningSame => 3
  | .notHomed => 4
  | .armFull => 5
  | .peersFull => 6
  | .notArmed => 7
  | .busy => 8
  | .noEnable => 9
  | .groupNotReady => 10
  | .sigMismatch => 11

/-- The reason code of an outcome (R165). -/
def CueOutcome.code : CueOutcome → Nat
  | .arrived => 1
  | .landed => 2
  | .abandoned => 3
  | .holdLimit => 4
  | .peerLost => 5
  | .groupBroken => 6
  | .fault _ => 7
  | .estop => 8
  | .lineReset => 9

/-- The condition code an outcome names, 0 for none (R165). -/
def CueOutcome.conditionCode : CueOutcome → Nat
  | .fault c => c.code
  | .arrived | .landed | .abandoned | .holdLimit | .peerLost | .groupBroken | .estop | .lineReset => 0

/-- The reason code of the end of a homing move (R165). -/
def HomingResult.code : HomingResult → Nat
  | .homed => 10
  | .homeAborted => 11
  | .homeMiss => 12

/-- Seven bytes of a last event: event, cue number, reason, condition code, remaining distance (R165). -/
def eventFields (event cue reason cond remaining : Nat) : List Byte :=
  [BitVec.ofNat 8 event] ++ bytes2 (BitVec.ofNat 16 cue) ++ [BitVec.ofNat 8 reason, BitVec.ofNat 8 cond] ++
    bytes2 (half16 remaining)

/-- The last event of a STATUS (R165). The bytes of a field that the event does not have, and those after the 0 of an
absent event, are 0, which the spec leaves open (R78, log 57). -/
def eventBytes : Option CueEvent → List Byte
  | none => eventFields 0 0 0 0 0
  | some (.armed n) => eventFields 1 n 0 0 0
  | some (.disarmed n r) => eventFields 2 n r.code 0 0
  | some (.refused n r) => eventFields 3 n r.code 0 0
  | some (.started n) => eventFields 4 n 0 0 0
  | some (.ended n o rem) => eventFields 5 n o.code o.conditionCode rem
  | some (.homingEnded r) => eventFields 5 0 r.code 0 0

/-- An item of the fault summary: the code in bits 0 to 4, bit 6 present, bit 7 latched (R165). Bit 5, to which the spec
gives no meaning, is 0 (log 60). -/
def faultByte (f : Condition × Bool × Bool) : Byte :=
  BitVec.ofNat 8 f.1.code ||| flagBit f.2.1 6 ||| flagBit f.2.2 7

/-- An armed pair (R165). -/
def pairBytes (p : Nat × Check) : List Byte := bytes2 (BitVec.ofNat 16 p.1) ++ bytes2 p.2

/-- The fixed head of a STATUS payload, bytes 0 to 30 (R165). -/
def statusHead (st : Status) : List Byte :=
  [BitVec.ofNat 8 st.axis.code, statusFlags st] ++ bytes2 (BitVec.ofNat 16 st.cue) ++
    [BitVec.ofNat 8 (phaseCode st.phase)] ++ bytes2 (BitVec.ofNat 16 st.progress) ++ bytes4 (word32 st.setPoint) ++
    bytes4 (word32 st.measured) ++ bytes4 (word32 st.stopPoint) ++ bytes4 (signed32 st.velocity) ++
    bytes4 (signed32 (st.filtered.getD 0)) ++
    [BitVec.ofNat 8 st.override, st.enableCount, activeByte st.active 0, BitVec.ofNat 8 st.armed.length]

/-- The STATUS payload (R165). -/
def statusPayload (st : Status) : List Byte :=
  statusHead st ++ st.armed.flatMap pairBytes ++ eventBytes st.lastEvent ++ [BitVec.ofNat 8 st.faults.length] ++
    st.faults.map faultByte

/-- The MARK payload (R165). -/
def markPayload (m : MarkBody) : List Byte := bytes2 (BitVec.ofNat 16 m.cue) ++ [BitVec.ofNat 8 m.mark]

/-- The kind code of a request (R165). -/
def RequestKind.code : RequestKind → Nat
  | .clear => 13
  | .home => 14
  | .cueload => 15
  | .cuedrop => 16
  | .cueask => 17
  | .save => 18
  | .setup => 19

/-- The result code of a REPLY (R165). -/
def ReplyResult.code : ReplyResult → Nat
  | .done => 1
  | .badField => 2
  | .tableFull => 3
  | .cueInUse => 4
  | .saving => 5
  | .noCue => 6
  | .notIdle => 7
  | .noEnable => 8
  | .homeBlocked => 9
  | .stillActive => 10
  | .notMaint => 11
  | .range => 12

/-- The detail of a REPLY, open where it does not fit two bytes (R165, log 64). -/
def detail16 (n : Nat) : BitVec 16 := if n < 65536 then BitVec.ofNat 16 n else Config.replyDetailBeyond n

/-- The REPLY payload (R165). -/
def replyPayload (r : Reply) : List Byte :=
  [BitVec.ofNat 8 r.kind.code, r.seq, BitVec.ofNat 8 r.result.code] ++ bytes2 (detail16 r.detail)

/-- The header of a frame sent (R153). -/
structure TxHeader where
  kind : Nat
  sender : Nat
  addressee : Nat
  seq : Byte
  deriving DecidableEq, Repr

/-- The kind code of a frame sent; a reservation is no frame (R160, R165). -/
def txKind : TxBody → Option Nat
  | .status _ => some 1
  | .mark _ => some 2
  | .announce _ => some 3
  | .reply (.reply _) => some 4
  | .reply (.report _) => some 5
  | .reply (.reservation _ _ _) => none

/-- The addressee of a frame sent: 0 for a STATUS (R161), a MARK (R162) and an ANNOUNCE (R172), the sender of the request
for an answer (R163). -/
def txAddressee : TxBody → Nat
  | .status _ => 0
  | .mark _ => 0
  | .announce _ => 0
  | .reply (.reply r) => r.addressee
  | .reply (.report r) => r.addressee
  | .reply (.reservation _ addressee _) => addressee

/-- The payload of a frame sent, for the kinds whose layout R165 gives. -/
def txPayload : TxBody → Option (List Byte)
  | .status st => some (statusPayload st)
  | .mark m => some (markPayload m)
  | .reply (.reply r) => some (replyPayload r)
  | .reply (.report _) => none
  | .reply (.reservation _ _ _) => none
  | .announce _ => none

/-- The header on the line during an attempt, whatever the kind (R153). -/
def lineHeader (s : State) : Option TxHeader :=
  s.line.attempt.bind fun a => (txKind a.body).map fun k => ⟨k, s.station, txAddressee a.body, a.seq⟩

/-- The bytes on the line during an attempt, for the kinds whose layout R165 gives (STATUS, MARK, REPLY). -/
def lineBytes (s : State) : Option (List Byte) :=
  match lineHeader s, s.line.attempt.bind fun a => txPayload a.body with
  | some h, some payload => some (wireFrame h.kind h.sender h.addressee h.seq payload)
  | _, _ => none

/-! ## The line, bit by bit -/

/-- What one bit time of a byte holds (R153). -/
inductive LineBit where
  | start
  | data (b : Bool)
  | stop
  deriving DecidableEq, Repr

/-- A byte as it is sent: a start bit, eight data bits, the least significant first, and a stop bit (R153). -/
def serialByte (b : Byte) : List LineBit := [.start] ++ (List.range 8).map (fun i => .data (b.getLsbD i)) ++ [.stop]

/-- A frame as it is sent, 10 bit times to a byte (R153). -/
def serialFrame (raw : List Byte) : List LineBit := raw.flatMap serialByte

/-- The byte of eight data bits, the least significant first (R153). -/
def byteOfBits (bits : List Bool) : Byte := BitVec.ofNat 8 (bits.foldr (fun b n => 2 * n + b.toNat) 0)

/-- The bytes a receiver takes from the line; none where a start or a stop bit is missing (R153). -/
def readSerial : List LineBit → Option (List Byte)
  | [] => some []
  | .start :: .data a :: .data b :: .data c :: .data d :: .data e :: .data f :: .data g :: .data h :: .stop :: rest =>
    (readSerial rest).map fun bytes => byteOfBits [a, b, c, d, e, f, g, h] :: bytes
  | _ => none

/-- The bits on the line during an attempt (R153, R155). -/
def lineBits (s : State) : Option (List LineBit) := (lineBytes s).map serialFrame

/-! ## Attempts -/

/-- An entry of the REPLY queue is a frame and not a reservation (R160). -/
def sendable : ReplyBody → Bool
  | .reply _ => true
  | .report _ => true
  | .reservation _ _ _ => false

/-- The place of the oldest REPLY or CUEREPORT, reservations passed over (R160). -/
def oldestReply (l : List (Queued ReplyBody)) : Option Nat := l.findIdx? fun e => sendable e.body

/-- The element at a place of a list changed. -/
def changeAt {α : Type} (f : α → α) : Nat → List α → List α
  | _, [] => []
  | 0, a :: rest => f a :: rest
  | n + 1, a :: rest => a :: changeAt f n rest

/-- A frame's sequence count for an attempt: its own, or the port's next (R154). -/
def takeSeq {α : Type} (l : LinePort) (f : Queued α) : Byte := f.seq.getD l.seqCount

/-- The port's count after an attempt began: it rises where the frame took it (R154). -/
def seqAfter {α : Type} (l : LinePort) (f : Queued α) : Byte := if f.seq.isSome then l.seqCount else l.seqCount + 1

/-- A frame with the count of its first attempt. -/
def withSeq {α : Type} (l : LinePort) (f : Queued α) : Queued α := { f with seq := some (takeSeq l f) }

/-- An attempt begins on the frame the sending order chooses: the oldest MARK, else the STATUS, else the oldest REPLY
or CUEREPORT, else the ANNOUNCE (R155, R160). Nothing held: no attempt. -/
def beginAttempt (l : LinePort) : LinePort :=
  match l.marks with
  | m :: rest =>
    { l with
      marks := withSeq l m :: rest
      seqCount := seqAfter l m
      backoff := none
      attempt := some ⟨.mark, takeSeq l m, m.attempts, .mark m.body, false⟩ }
  | [] =>
    match l.status with
    | some f =>
      { l with
        status := some (withSeq l f)
        seqCount := seqAfter l f
        backoff := none
        attempt := some ⟨.status, takeSeq l f, f.attempts, .status f.body, false⟩ }
    | none =>
      match (oldestReply l.replies).bind fun i => (l.replies[i]?).map fun f => (i, f) with
      | some (i, f) =>
        { l with
          replies := changeAt (fun _ => withSeq l f) i l.replies
          seqCount := seqAfter l f
          backoff := none
          attempt := some ⟨.reply i, takeSeq l f, f.attempts, .reply f.body, false⟩ }
      | none =>
        match l.announce with
        | some f =>
          { l with
            announce := some (withSeq l f)
            seqCount := seqAfter l f
            backoff := none
            attempt := some ⟨.announce, takeSeq l f, f.attempts, .announce f.body, false⟩ }
        | none => l

/-- A frame leaves its slot or queue; the newer frame of a slot taken meanwhile stays, with a count of 0 (R156, log
29). -/
def leaveStore (a : Attempt) (l : LinePort) : LinePort :=
  match a.store with
  | .mark => { l with marks := l.marks.tail }
  | .status =>
    { l with status := if a.superseded then l.status.map (fun f => { f with attempts := 0 }) else none }
  | .reply i => { l with replies := l.replies.eraseIdx i }
  | .announce =>
    { l with announce := if a.superseded then l.announce.map (fun f => { f with attempts := 0 }) else none }

/-- The attempt count of a frame rises; the STATUS that replaced it takes the count (R156). -/
def countAttempt (a : Attempt) (l : LinePort) : LinePort :=
  match a.store with
  | .mark => { l with marks := changeAt (fun f => { f with attempts := a.attempts + 1 }) 0 l.marks }
  | .status => { l with status := l.status.map fun f => { f with attempts := a.attempts + 1 } }
  | .reply i => { l with replies := changeAt (fun f => { f with attempts := a.attempts + 1 }) i l.replies }
  | .announce =>
    if a.superseded then l else { l with announce := l.announce.map fun f => { f with attempts := a.attempts + 1 } }

/-- MARK_LOST is set for a dropped MARK (R157). -/
def dropConsequence (a : Attempt) (l : LinePort) : LinePort :=
  match a.store with
  | .mark => { l with markLost := true }
  | .status | .reply _ | .announce => l

/-- The backoff of a failed attempt, bit times, `k` the attempt count reached (R156). -/
def backoffOf (station k : Nat) : Nat := 4 * station + 256 * (k - 1)

/-- An attempt fails: the count rises, an eighth failure drops the frame, a backoff is drawn (R156, R157). -/
def failAttempt (station : Nat) (a : Attempt) (l : LinePort) : LinePort :=
  let k := a.attempts + 1
  let l := if 8 ≤ k then dropConsequence a (leaveStore a l) else countAttempt a l
  { l with attempt := none, backoff := some (backoffOf station k) }

end Sys2Proof.Machine
end

