-- ==== Sys2Proof/Machine/CueCalls.lean ====
section
/-! DEFINITION. The calls of cue control (chapter 4) and the requests that act on the axis: STANDBY, GO, CANCEL, STOP,
ENABLE, MARK, CLEAR, HOME, LINERESET, and the expiries of its windows, delays, lapse and hold limits. -/

namespace Sys2Proof.Machine

/-! ## STANDBY -/

/-- The window of an arming: seconds in ms, 0 for no expiry (R62). -/
def windowOf (seconds : Nat) : Option Nat := if seconds = 0 then none else some (seconds * 1000)

/-- The refusal of an arming by the tests before "already armed" (R62, tests 1 to 4). -/
def earlyRefusal (s : State) (cue : Nat) : Option RefuseReason :=
  if s.seq.axis = .tripped then some .tripped
  else if (findCue s.table cue).isNone then some .noCue
  else if isRunning s cue then some .runningSame
  else if !s.meas.referenced then some .notHomed
  else none

/-- The window of an armed cue restarted (R62, test 5). -/
def restartWindow (cue window : Nat) (s : State) : State :=
  s.onCtl fun c =>
    { c with armed := c.armed.map fun a => if a.cue = cue then { a with window := windowOf window } else a }

/-- The refusal by the last two tests (R62, tests 6 and 7). -/
def lateRefusal (s : State) (r : CueRecord) : Option RefuseReason :=
  if 4 ≤ s.ctl.armed.length then some .armFull
  else if !peersFit s.station s.peers r.cue then some .peersFull
  else none

/-- The armed-list entry of an arming (R62). -/
def armedEntry (r : CueRecord) (window : Nat) : ArmedCue :=
  ⟨r.cue.number, windowOf window, if r.cue.follow.isSome then some .waiting else none⟩

/-- An arming is taken (R62): the entry joins, the peer table joins, the sequencer is told, ARMED is recorded. -/
def takeArming (r : CueRecord) (window : Nat) (s : State) : State :=
  let s := s.onCtl fun c => { c with armed := c.armed ++ [armedEntry r window] }
  let s := s.onPeers (joinPeers s.station r.cue)
  let s := if s.seq.axis = .rest then enterWaking .none s else s
  recordEvent (.armed r.cue.number) s

/-- The arming of a cue on an axis in the set (R62). A refusal records the number as the frame gives it (log 49). -/
def arming (cue window : Nat) (s : State) : State :=
  match earlyRefusal s cue, findCue s.table cue with
  | some reason, _ => recordEvent (.refused cue reason) s
  | none, none => recordEvent (.refused cue .noCue) s
  | none, some r =>
    if isArmed s cue then restartWindow cue window s
    else
      match lateRefusal s r with
      | some reason => recordEvent (.refused cue reason) s
      | none => takeArming r window s

/-- STANDBY (R62). -/
def execStandby (h : Hdr) (cue : Nat) (set : StationSet) (window : Nat) (s : State) :
    Host.Outcome State Fault Refusal :=
  if setFrameTaken s h set then .next (finish (arming cue window s)) else .next s

/-! ## GO -/

/-- A GO for a record of the table that is not running: refused, or the cue starts (R67). A delay of another cue that has
run down and has not been taken yet expires right after the start (R76, log 48). -/
def goCue (r : CueRecord) (s : State) : State :=
  if !isArmed s r.cue.number then recordEvent (.refused r.cue.number .notArmed) s
  else
    match startRefusal s r with
    | some reason => recordEvent (.refused r.cue.number reason) s
    | none => drainDelays (startCue r s)

/-- GO (R67): ignored for the running cue and for an absent number. -/
def execGo (h : Hdr) (cue : Nat) (s : State) : Host.Outcome State Fault Refusal :=
  if consoleFrameTaken s h && !isRunning s cue then
    match findCue s.table cue with
    | none => .next s
    | some r => .next (finish (goCue r s))
  else .next s

/-! ## CANCEL, STOP, ENABLE -/

/-- CANCEL (R64): the armed cue is disarmed; a number not armed changes nothing. -/
def execCancel (h : Hdr) (cue : Nat) (set : StationSet) (s : State) : Host.Outcome State Fault Refusal :=
  if setFrameTaken s h set && isArmed s cue then .next (finish (disarm .cancel s cue)) else .next s

/-- STOP (R72): a controlled end demand with reason ABANDONED for a cue in STARTING or RUNNING. -/
def execStop (h : Hdr) (set : StationSet) (s : State) : Host.Outcome State Fault Refusal :=
  if setFrameTaken s h set && s.ctl.ctx.any endable then .next (finish (controlledEnd .abandoned s)) else .next s

/-- The enable state after an ENABLE (R65). -/
def takeEnable (override : Nat) (count : Byte) (s : State) : State :=
  s.onCtl fun c =>
    { c with
      enableFresh := true
      lapse := some s.store.live.enableLapse
      override := min override 100
      enableCount := count }

/-- ENABLE (R65). -/
def execEnable (h : Hdr) (set : StationSet) (override : Nat) (count : Byte) (s : State) :
    Host.Outcome State Fault Refusal :=
  if setFrameTaken s h set then .next (takeEnable override count s) else .next s

/-! ## MARK -/

/-- A MARK matches an armed cue in WAITING (R75). -/
def markMatches (s : State) (sender cue mark : Nat) (a : ArmedCue) : Bool :=
  decide (a.trigger = some .waiting) &&
    match followOf s a.cue with
    | none => false
    | some f => decide (f.station = sender) && decide (f.cue = cue) && decide (f.mark = mark)

/-- Each matching cue becomes DELAYING, or PENDING while a cue context exists (R75). -/
def takeMark (sender cue mark : Nat) (s : State) : State :=
  s.onCtl fun c =>
    { c with armed := c.armed.map fun a =>
        if markMatches s sender cue mark a then
          { a with trigger := some (if s.ctl.ctx.isNone then .delaying (delayOf s a.cue) else .pending) }
        else a }

/-- MARK (R75, R76): delays of 0 expire as the cues become DELAYING. -/
def execMarkFrame (h : Hdr) (cue mark : Nat) (s : State) : Host.Outcome State Fault Refusal :=
  if axisFrameTaken s h && s.ctl.armed.any (markMatches s h.sender cue mark) then
    .next (finish (drainDelays (takeMark h.sender cue mark s)))
  else .next s

/-! ## CLEAR -/

/-- Every latched condition that is absent leaves the latched set (R150). -/
def dropAbsent (s : State) : State :=
  s.onSup fun p => { p with latched := p.latched.filter fun c => p.present.contains c }

/-- The effect of a CLEAR on an axis acting on it (R150): nothing while stopping toward TRIPPED; a TRIPPED axis whose
latched set is emptied enters REST; one that stays TRIPPED may have its drive asserted again (R2, R142, log 36). -/
def clearAct (s : State) : State :=
  if stoppingToTrip s then s
  else
    let t := dropAbsent s
    if t.seq.axis = .tripped then
      if t.sup.latched.isEmpty then setAxis .rest t
      else
        let t := followDrive t
        if t.inp.driveReady then seeReady t else t
    else t

/-- The result of a CLEAR (R150). -/
def clearResult (s : State) : ReplyResult :=
  if stoppingToTrip s then .stillActive else if (dropAbsent s).sup.latched.isEmpty then .done else .stillActive

/-- CLEAR (R150): addressed to the own station it is answered; addressed to 0 it acts by its set. -/
def execClear (h : Hdr) (set : StationSet) (s : State) : Host.Outcome State Fault Refusal :=
  if requestTaken s h then .next (finish (answer h .clear (clearResult s) 0 (clearAct s)))
  else if consoleFrameTaken s h && decide (h.addressee = 0) && inSet set s.station then .next (finish (clearAct s))
  else .next s

/-! ## HOME -/

/-- The refusal of a HOME (R125). -/
def homeRefusal (s : State) : Option ReplyResult :=
  if !homeIdle s then some .notIdle
  else if !s.ctl.enableFresh then some .noEnable
  else if !clearVerdict s then some .homeBlocked
  else none

/-- An accepted HOME: the REPLY DONE is queued and the sequencer asked to start the homing move (R125). -/
def acceptHome (h : Hdr) (s : State) : State :=
  let s := answer h .home .done 0 s
  requestStart .home (s.onCtl fun c => { c with homing := some ⟨false, false, false⟩ })

/-- HOME (R125): addressed to 0 it is discarded; refused, it changes no state but the REPLY queue. -/
def execHome (h : Hdr) (s : State) : Host.Outcome State Fault Refusal :=
  if requestTaken s h then
    match homeRefusal s with
    | some r => .next (answer h .home r 0 s)
    | none => .next (finish (acceptHome h s))
  else .next s

/-! ## LINERESET -/

/-- A line reset on cue control (R80): the cue is ended, every armed cue disarmed, enable lost, the override 100. -/
def lineResetCues (s : State) : State :=
  let s := disarmAll .lineReset (controlledEnd .lineReset s)
  let s := loseEnable s
  s.onCtl fun c => { c with override := 100 }

/-- LINERESET (R164): cue control, the peer table (R92), then the ANNOUNCE and the STATUS, which is built beside that of
a change of axis state (R161). -/
def execLinereset (h : Hdr) (set : StationSet) (s : State) : Host.Outcome State Fault Refusal :=
  if setFrameTaken s h set then
    let s := (lineResetCues s).onPeers unhearClearance
    .next (finish ((buildAnnounce .lineReset s).onLine noteChange))
  else .next s

/-! ## Expiries of cue control -/

/-- LAPSE_TIMER_EXPIRY (R66): enable becomes not fresh. -/
def execLapseTimerExpiry (s : State) : Host.Outcome State Fault Refusal :=
  if s.ctl.lapse.isSome then .next (finish (loseEnable s)) else .next s

/-- The armed cue has a window that counts (R64). -/
def windowRuns (s : State) (cue : Nat) : Bool :=
  s.ctl.armed.any fun a => decide (a.cue = cue) && a.window.isSome

/-- WINDOW_EXPIRY (R64): the cue is disarmed WINDOW. -/
def execWindowExpiry (cue : Nat) (s : State) : Host.Outcome State Fault Refusal :=
  if windowRuns s cue then .next (finish (disarm .window s cue)) else .next s

/-- A trigger state is DELAYING. -/
def isDelaying : Option Trigger → Bool
  | some (.delaying _) => true
  | some .waiting => false
  | some .pending => false
  | none => false

/-- The armed cue is DELAYING (R76). -/
def delayRuns (s : State) (cue : Nat) : Bool :=
  s.ctl.armed.any fun a => decide (a.cue = cue) && isDelaying a.trigger

/-- FOLLOW_DELAY_EXPIRY (R76). -/
def execFollowDelayExpiry (cue : Nat) (s : State) : Host.Outcome State Fault Refusal :=
  if delayRuns s cue then .next (finish (expireDelay cue s)) else .next s

/-- What a hold limit passed does, by axis state (R71). -/
def passHoldLimit (s : State) : State :=
  match s.seq.axis with
  | .held => controlledEnd .holdLimit s
  | .suspended => controlledEnd .holdLimit s
  | .releasing => controlledEnd .holdLimit s
  | .recovering => refuseRecovery s
  | .setting =>
    if s.seq.dest = .suspended then controlledEnd .holdLimit s
    else if s.seq.dest = .recovering then refuseRecovery s
    else s
  | .unaddressed | .rest | .waking | .parked | .moving | .stopping | .homing | .tripped => s

/-- The cue context is in a phase. -/
def inPhase (s : State) (p : CuePhase) : Bool := s.ctl.ctx.any fun x => decide (x.phase = p)

/-- HOLD_LIMIT_EXCEEDED (R71), in phase RUNNING. -/
def execHoldLimitExceeded (s : State) : Host.Outcome State Fault Refusal :=
  if inPhase s .running then .next (finish (passHoldLimit s)) else .next s

/-- The state in which a recovery wait counts: SETTING toward RECOVERING, WAKING with start request RECOVER,
RECOVERING (R147). -/
def waitCounts (s : State) : Bool :=
  inPhase s .starting && s.sup.recovery.isSome &&
    match s.seq.axis with
    | .recovering => true
    | .waking => decide (s.seq.startReq = .recover)
    | .setting => decide (s.seq.dest = .recovering)
    | .unaddressed | .rest | .parked | .releasing | .moving | .held | .suspended | .stopping | .homing | .tripped =>
      false

/-- RECOVERY_WAIT_EXCEEDED (R147), in phase STARTING. -/
def execRecoveryWaitExceeded (s : State) : Host.Outcome State Fault Refusal :=
  if waitCounts s then .next (finish (refuseRecovery s)) else .next s

/-- The start request of a re-release: CUE for a cue still in STARTING (R1, R20). -/
def reReleaseRequest (s : State) : StartRequest := if inPhase s .starting then .cue else .none

/-- The dwell timer runs (R146). -/
def dwellRuns (s : State) : Bool :=
  decide (s.seq.axis = .recovering) &&
    match s.sup.recovery with
    | none => false
    | some r => r.dwell.isSome

/-- DWELL_EXPIRY (R146): the recovery record is removed and a re-release begins. -/
def execDwellExpiry (s : State) : Host.Outcome State Fault Refusal :=
  if dwellRuns s then
    .next (finish (beginRelease (reReleaseRequest s) (s.onSup fun p => { p with recovery := none })))
  else .next s

end Sys2Proof.Machine
end

