-- ==== Sys2Proof/Machine/PeerFrames.lean ====
section
/-! DEFINITION. What the peer table does with the line and with time (chapters 5 and 6): STATUS_FRAME, PEER_AGEING. -/

namespace Sys2Proof.Machine

/-- The member views after a notice for a member (R97). -/
def notedViews (cue : Nat) (landing : Bool) (member : Nat) (c : PeerContents) (views : List (Nat × MemberView)) :
    List (Nat × MemberView) :=
  views.map fun v => if v.1 = member then (v.1, nextView cue landing c v.2) else v

/-- An update notice (R90): the member's view is updated (R97), then the group-broken test is applied (R103). -/
def noteUpdate (member : Nat) (c : PeerContents) (s : State) : State :=
  match s.ctl.ctx with
  | none => s
  | some x =>
    let landing := ownLanding s.store.live x.record.cue s.gen.s
    groupTest (onCtx (fun y => { y with views := notedViews x.record.cue.number landing member c y.views }) s) member

/-- A STATUS taken: the sender's entry is updated and FRESH, and the notice is handed (R88, R90). -/
def takeStatus (sender : Nat) (c : PeerContents) (s : State) : State :=
  if hasPeer s.peers sender then noteUpdate sender c (s.onPeers (updatePeer sender c)) else s

/-- STATUS_FRAME (R88): a malformed payload, or a sender with no entry, is ignored. -/
def execStatusFrame (h : Hdr) (payload : List Byte) (s : State) : Host.Outcome State Fault Refusal :=
  if axisFrameTaken s h then
    match parseStatus payload with
    | none => .next s
    | some c => .next (finish (takeStatus h.sender c s))
  else .next s

/-- The view of a member in a context, if it is one. -/
def viewOf (x : CueContext) (member : Nat) : Option MemberView :=
  (x.views.find? fun v => decide (v.1 = member)).map (·.2)

/-- A loss notice (R90, R102): a member of the running cue that is not FINISHED ends it PEER_LOST. -/
def noteLoss (s : State) (member : Nat) : State :=
  match s.ctl.ctx with
  | none => s
  | some x =>
    match viewOf x member with
    | none => s
    | some v => if v = .finished then s else controlledEnd .peerLost s

/-- PEER_AGEING (R89, R90, R102): every entry ages, then the loss notices are handed in table order. -/
def execPeerAgeing (s : State) : Host.Outcome State Fault Refusal :=
  if s.held.isSome then .next s
  else
    let lost := newlyLost s.store.live s.peers
    .next (finish (lost.foldl noteLoss (s.onPeers fun ps => ps.map (agePeer s.store.live))))

end Sys2Proof.Machine
end

