-- ==== Sys2Proof/Machine/Power.lean ====
section
/-! DEFINITION. Resets, the power-on sequence and the stored tables it reads (chapters 3 and 11): POWER_ON, SUPPLY_DIP,
RESET_PIN, POWER_ON_SEQUENCE. -/

namespace Sys2Proof.Machine

/-- The setup block a reset leaves: during a write, the new or the old one (R169, log 8). -/
def nvAfterReset (s : State) : NvSetup :=
  if s.store.writing && Config.setupWriteKept s.freeCount then writtenSetup s.store.image s.store.revision
  else s.store.nvSetup

/-- The one of two causes that comes first in the order POWER_ON, SUPPLY_DIP, RESET_PIN (R171). -/
def firstCause : ResetCause → ResetCause → ResetCause
  | .powerOn, _ => .powerOn
  | _, .powerOn => .powerOn
  | .supplyDip, _ => .supplyDip
  | _, .supplyDip => .supplyDip
  | .resetPin, .resetPin => .resetPin

/-- The cause of the reset when one is applied over what is held: of causes applied at the same time the first in the
order; a reset applied later starts the sequence afresh with its own cause (R171, log 7). -/
def resetCause (cause : ResetCause) (s : State) : ResetCause :=
  match s.held with
  | none => cause
  | some other => if s.resetNow then firstCause cause other else cause

/-- A reset applied: every block at its reset values; the inputs, the nonvolatile memory and the queue stay (R171). -/
def applyReset (cause : ResetCause) (s : State) : State :=
  { State.reset with
    pending := s.pending
    held := some (resetCause cause s)
    resetNow := true
    freeCount := if s.store.writing then s.freeCount + 1 else s.freeCount
    inp := s.inp
    store := { Stores.initial with nvSetup := nvAfterReset s, nvCues := s.store.nvCues } }

/-! ## The cue table -/

/-- A record inserted at its place in the order of cue numbers, or put in the place of the one of its number (R50,
R56). -/
def insertRecord (r : CueRecord) : List CueRecord → List CueRecord
  | [] => [r]
  | q :: rest =>
    if r.cue.number < q.cue.number then r :: q :: rest
    else if r.cue.number = q.cue.number then r :: rest
    else q :: insertRecord r rest

/-- A record as it is taken into the table, with its signature (R49). -/
def takenRecord (c : CueDef) : CueRecord := ⟨c, signatureOf c⟩

/-- A stored record passes the revalidation (R52). -/
def revalidated (live : Setup) (own : Nat) (c : CueDef) : Bool :=
  withinSoft live (some (c.target : Int)) && c.marks.all (fun m => withinSoft live (some (m : Int))) &&
    (match c.group with
      | none => true
      | some g => g.members.contains own) &&
    (match c.follow with
      | none => true
      | some f => decide (f.station ≠ own))

/-- The cue store state (R170). A store that passes its check and counts more than 200 records is taken as BAD (log
53). -/
def storeStateOf (nv : NvCues) : StoreState :=
  if nv.good && decide (nv.count ≤ 200) then if nv.count = 0 then .empty else .good else .bad

/-- The table of the power-on load (R51, R52). -/
def loadedTable (live : Setup) (own : Nat) (nv : NvCues) : List CueRecord :=
  match storeStateOf nv with
  | .good => ((nv.stored.filter (revalidated live own)).map takenRecord).foldl (fun t r => insertRecord r t) []
  | .empty => []
  | .bad => []

/-! ## The power-on sequence -/

/-- The setup check passes (R168). -/
def setupGood (own : Nat) (nv : NvSetup) : Bool := nv.good && contentGood own nv.image

/-- The stored image and revision of the setup step: the default block after an integrity failure (R168). -/
def storedImage (nv : NvSetup) : Setup × BitVec 16 :=
  if nv.good then (nv.image, nv.revision) else (Setup.default, 0)

/-- The default block with no clearance rules (R168). -/
def liveSetup (own : Nat) (nv : NvSetup) : Setup := if setupGood own nv then nv.image else Setup.default

/-- The axis state of the state-entry step (R3). -/
def entryState (own : Nat) (good loopOpen : Bool) : AxisState :=
  if !axisStation own then .unaddressed else if good && !loopOpen then .rest else .tripped

/-- The conditions present and latched at the state-entry step (R3, R137). -/
def entryConditions (own : Nat) (good loopOpen : Bool) : List Condition :=
  if !axisStation own then []
  else conditionsWhere fun c => (decide (c = .setupBad) && !good) || (decide (c = .estop) && loopOpen)

/-- The measured position of a count under an offset (R123). -/
def measuredOf (S : Setup) (offset : Int) (count : BitVec 32) : Position :=
  clampPosition (offset + count.toInt * S.nmPerCount)

/-- The input-level conditions, evaluated from the state-entry step (R137, R141, log 32). -/
def watchLevels (s : State) : State :=
  if watched s then
    evaluate .driveFault s.inp.driveFault (evaluate .ultimate (s.inp.ultUpOpen || s.inp.ultDownOpen) s)
  else s

/-- The power-on sequence up to its state-entry step (R171, steps 1 to 5). -/
def stateEntry (own : Nat) (s : State) : State :=
  let nv := s.store.nvSetup
  let good := setupGood own nv
  let live := liveSetup own nv
  let stored := storedImage nv
  let pos := measuredOf live s.meas.offset s.meas.count
  let env := softEnvelope live
  { s with
    held := none
    resetNow := false
    station := own
    seq := { s.seq with axis := entryState own good s.inp.loopOpen, startReq := .none }
    gen := { s.gen with s := pos, v := 0, stopPoint := pos, pub := ⟨pos.toNat / 1000, 0, pos.toNat / 1000⟩ }
    meas := { s.meas with measured := pos }
    table := loadedTable live own s.store.nvCues
    peers := if good && axisStation own then clearancePeers live else []
    guard := ⟨(rulesInUse live).map fun _ => true, env.1, env.2, false⟩
    sup :=
      { s.sup with
        present := entryConditions own good s.inp.loopOpen
        latched := entryConditions own good s.inp.loopOpen }
    line := noteChange s.line
    store :=
      { s.store with
        image := stored.1
        revision := stored.2
        live := live
        cueState := storeStateOf s.store.nvCues } }

/-- The whole power-on sequence for the reset that is applied (R171). -/
def powerOnRun (cause : ResetCause) (straps : BitVec 6) (s : State) : State :=
  buildAnnounce (.reset cause) (finish (watchLevels (stateEntry straps.toNat s)))

/-! ## Meanings -/

/-- POWER_ON (R171): a power-on reset is applied. -/
def execPowerOn (s : State) : Host.Outcome State Fault Refusal := .next (applyReset .powerOn s)

/-- SUPPLY_DIP (R171): a supply-dip reset is applied. -/
def execSupplyDip (s : State) : Host.Outcome State Fault Refusal := .next (applyReset .supplyDip s)

/-- RESET_PIN (R171): a reset-pin reset is applied. -/
def execResetPin (s : State) : Host.Outcome State Fault Refusal := .next (applyReset .resetPin s)

/-- POWER_ON_SEQUENCE (R171): the applied reset is released, with the straps as they read then. A part with no reset
applied has none to release (log 2). -/
def execPowerOnSequence (straps : BitVec 6) (s : State) : Host.Outcome State Fault Refusal :=
  match s.held with
  | none => .next s
  | some cause => .next (powerOnRun cause straps s)

end Sys2Proof.Machine
end

