-- ==== Sys2Proof/Machine/Winch.lean ====
section
/-! DEFINITION. The events of the winch (chapters 1, 8 and 9): the emergency-stop loop, DRIVE_READY, DRIVE_FAULT, the
ultimate limits, BRAKE_FB, HOME_SW, the encoder, the PWM boundary and the completion of a load conversion. -/

namespace Sys2Proof.Machine

/-! ## Levels that are conditions -/

/-- The opening of the loop on an axis that is watched (R17): ESTOP is present and latched, the outputs go off, the axis
is TRIPPED. -/
def openLoop (s : State) : State :=
  let t := latch .estop (markPresent .estop s)
  if t.seq.axis = .tripped then followDrive t else enterTripped .estop t

/-- ESTOP_LOOP_OPEN (R2, R17). An UNADDRESSED part does not watch the loop; its drive is off (R3). -/
def execEstopLoopOpen (s : State) : Host.Outcome State Fault Refusal :=
  let t := s.onInp fun p => { p with loopOpen := true }
  if watched s then .next (finish (openLoop t)) else .next t

/-- ESTOP_LOOP_CLOSED (R17, R141): ESTOP is absent and stays latched. -/
def execEstopLoopClosed (s : State) : Host.Outcome State Fault Refusal :=
  .next (markAbsent .estop (s.onInp fun p => { p with loopOpen := false }))

/-- DRIVE_READY found asserted: ready has been seen if the drive is on, and a wake completes (R7, R142, log 36). -/
def takeReady (s : State) : State := if s.seq.axis = .waking then completeWake s else seeReady s

/-- DRIVE_READY_ASSERTED (R7, R142). -/
def execDriveReadyAsserted (s : State) : Host.Outcome State Fault Refusal :=
  .next (finish (takeReady (s.onInp fun p => { p with driveReady := true })))

/-- The loss form of DRIVE_READY (R142): it occurs, and the DROP that follows makes it absent. -/
def loseReady (s : State) : State :=
  if driveEn s && s.sup.readySeen then markAbsent .driveReady (evaluate .driveReady true s) else s

/-- DRIVE_READY_LOST (R142). -/
def execDriveReadyLost (s : State) : Host.Outcome State Fault Refusal :=
  .next (finish (loseReady (s.onInp fun p => { p with driveReady := false })))

/-- A level condition evaluated as its input changes, on an axis that is watched (R137, R141). -/
def evaluateLevel (c : Condition) (detected : Bool) (s : State) : State :=
  if watched s then evaluate c detected s else s

/-- DRIVE_FAULT_ASSERTED (R141). -/
def execDriveFaultAsserted (s : State) : Host.Outcome State Fault Refusal :=
  .next (finish (evaluateLevel .driveFault true (s.onInp fun p => { p with driveFault := true })))

/-- DRIVE_FAULT_DEASSERTED (R141). -/
def execDriveFaultDeasserted (s : State) : Host.Outcome State Fault Refusal :=
  .next (finish (evaluateLevel .driveFault false (s.onInp fun p => { p with driveFault := false })))

/-- The inputs with a limit switch open. -/
def openLimit (sw : LimitSwitch) (p : Inputs) : Inputs :=
  match sw with
  | .ultUp => { p with ultUpOpen := true }
  | .ultDown => { p with ultDownOpen := true }

/-- ULTIMATE_OPEN (R141). -/
def execUltimateOpen (sw : LimitSwitch) (s : State) : Host.Outcome State Fault Refusal :=
  .next (finish (evaluateLevel .ultimate true (s.onInp (openLimit sw))))

/-- ULTIMATE_CLOSED (R141): both switches read closed. -/
def execUltimateClosed (s : State) : Host.Outcome State Fault Refusal :=
  .next (finish (evaluateLevel .ultimate false
    (s.onInp fun p => { p with ultUpOpen := false, ultDownOpen := false })))

/-! ## Brake feedback -/

/-- BRAKE_FB reads released: a release completes (R9). A BRAKE_SET that has become absent stays absent, latched or not
(R21, R141, R150, log 46). -/
def takeReleased (s : State) : State := if s.seq.axis = .releasing then completeRelease s else s

/-- BRAKE_FB_RELEASED (R9). -/
def execBrakeFbReleased (s : State) : Host.Outcome State Fault Refusal :=
  .next (finish (takeReleased (s.onInp fun p => { p with brakeReleased := true })))

/-- BRAKE_FB reads set: BRAKE_SET is absent (R141), and a set is confirmed (R16). -/
def takeSet (s : State) : State :=
  let t := markAbsent .brakeSet s
  if t.seq.axis = .setting then confirmSet t else t

/-- BRAKE_FB_SET (R16, R141). -/
def execBrakeFbSet (s : State) : Host.Outcome State Fault Refusal :=
  .next (finish (takeSet (s.onInp fun p => { p with brakeReleased := false })))

/-! ## Home switch and encoder -/

/-- The capture register after an inactive-to-active edge at a count (R126). -/
def captureEdge (count : BitVec 32) : Capture → Capture
  | .disarmed => .disarmed
  | .armed => .held count
  | .held _ => .held count

/-- HOME_SW_EDGE (R126): a change to active captures the count, a change to inactive is ignored (log 41). -/
def execHomeSwEdge (active : Bool) (s : State) : Host.Outcome State Fault Refusal :=
  let t := s.onInp fun p => { p with homeSw := active }
  if active then .next (t.onMeas fun m => { m with capture := captureEdge m.count m.capture }) else .next t

/-- The count after a step, wrapping (R122). -/
def countStep (step : QuadStep) (count : BitVec 32) : BitVec 32 :=
  match step with
  | .aLeads => count + 1
  | .bLeads => count - 1
  | .both => count

/-- The encoder pins after a step, in the order of a quadrature cycle (R122, log 40). -/
def pinStep (step : QuadStep) (p : Inputs) : Inputs :=
  match step with
  | .aLeads => if p.encA = p.encB then { p with encA := !p.encA } else { p with encB := !p.encB }
  | .bLeads => if p.encA = p.encB then { p with encB := !p.encB } else { p with encA := !p.encA }
  | .both => { p with encA := !p.encA, encB := !p.encB }

/-- ENCODER_STEP (R122): the counter runs from the release of a reset, in every axis state. -/
def execEncoderStep (step : QuadStep) (s : State) : Host.Outcome State Fault Refusal :=
  let t := s.onInp (pinStep step)
  if s.held.isSome then .next t else .next (t.onMeas fun m => { m with count := countStep step m.count })

/-! ## Speed reference -/

/-- PWM_BOUNDARY (R134): the active duty takes the pending duty. -/
def execPwmBoundary (s : State) : Host.Outcome State Fault Refusal :=
  .next (s.onMeas fun m => { m with activeDuty := m.pendingDuty })

/-! ## Load -/

/-- A raw value at a rail (R131). -/
def rawInvalid (raw : BitVec 12) : Bool := decide (raw = 0) || decide (raw = 4095)

/-- The load of a valid raw value, N (R132). -/
def loadOf (S : Setup) (raw : BitVec 12) : Int := ((raw.toNat : Int) - S.loadZero) * S.loadScale

/-- The window with a new load at its end; of four the oldest leaves (R132). -/
def joinWindow (load : Int) (w : List Int) : List Int := (if w.length < 4 then w else w.tail) ++ [load]

/-- The truncated mean of a window, absent for an empty one (R132). -/
def meanOf (w : List Int) : Option Int := if w.isEmpty then none else some (Int.tdiv w.sum w.length)

/-- A sample taken: invalid, the run rises to at most 4; valid, the run ends and the load joins the window (R131,
R132). -/
def takeSample (S : Setup) (raw : BitVec 12) (m : Measure) : Measure :=
  if rawInvalid raw then { m with converting := false, invalidRun := min (m.invalidRun + 1) 4 }
  else
    let w := joinWindow (loadOf S raw) m.window
    { m with converting := false, invalidRun := 0, window := w, filtered := meanOf w }

/-- The filtered load exceeds the overload limit (R140). -/
def overloaded (s : State) : Bool :=
  match s.meas.filtered with
  | none => false
  | some l => decide ((s.store.live.overload : Int) < l)

/-- The filtered load is below the slack limit (R140). -/
def slackened (s : State) : Bool :=
  match s.meas.filtered with
  | none => false
  | some l => decide (l < (s.store.live.slack : Int))

/-- The landing test, on an axis MOVING with SLACK present (R149). -/
def landingTest (s : State) : Bool :=
  match s.ctl.ctx with
  | none => false
  | some x => decide (x.phase = .running) && ownLanding s.store.live x.record.cue s.gen.s

/-- SLACK, evaluated only while the axis is MOVING and not under class OFF (R140); a landing takes the place of its
class, at every completion (R149). -/
def judgeSlack (s : State) : State :=
  if s.seq.axis = .moving ∧ classOf s .slack ≠ .off then
    if slackened s then
      let t := markPresent .slack s
      if landingTest s then controlledEnd .landed t
      else if isPresent s .slack then t
      else respond .slack t
    else markAbsent .slack s
  else s

/-- The load conditions at the completion of a conversion, in ascending order of code (R140, R143, log 37). -/
def judgeLoad (s : State) : State :=
  let t := judgeSlack (evaluate .overload (overloaded s) s)
  evaluate .loadSensor (decide (t.meas.invalidRun = 4)) t

/-- LOAD_CONVERSION_COMPLETE (R131 to R133, R140): of the conversion in flight. -/
def execLoadConversionComplete (raw : BitVec 12) (s : State) : Host.Outcome State Fault Refusal :=
  if watched s && s.meas.converting then
    .next (finish (judgeLoad (s.onMeas (takeSample s.store.live raw))))
  else .next s

end Sys2Proof.Machine
end

