-- ==== Sys2Proof/Machine/Period.lean ====
section
/-! DEFINITION. PROFILE_PERIOD (chapters 2, 6, 7 and 8): the referencing, the count latch, the guard, the coupler, the
generator in its five modes, the speed tests, and what the sequencer does with its report. The order of these within the
period is that of `execProfilePeriod` (log 13). -/

namespace Sys2Proof.Machine

/-! ## The start of the period -/

/-- The offset that places a captured count at the home position (R127). -/
def referencedOffset (S : Setup) (k : BitVec 32) : Int := (mmToNm S.homePos : Int) - k.toInt * S.nmPerCount

/-- Δ added to the set-point and to a homing move, whose phase becomes STOP (R38, R127). -/
def shiftBy (delta : Int) (g : Generator) : Generator :=
  { g with
    s := narrowPosition ((g.s.toNat : Int) + delta)
    homing := g.homing.map fun h => { h with h0 := h.h0 + delta, phase := .stop } }

/-- A HELD capture references the position (R127). -/
def applyReference (s : State) : State :=
  match s.meas.capture with
  | .disarmed => s
  | .armed => s
  | .held k =>
    let fresh := referencedOffset s.store.live k
    let delta := fresh - s.meas.offset
    let s := s.onMeas fun m => { m with offset := fresh, referenced := true, capture := .disarmed }
    onRun (fun r => { r with referenced := true }) (s.onGen (shiftBy delta))

/-- The count change of a period, modulo 2^32; 0 in the first one (R123). -/
def countChange (latched : Option (BitVec 32)) (count : BitVec 32) : Int :=
  match latched with
  | none => 0
  | some old => (count - old).toInt

/-- The count is latched, the three values formed from it, a load conversion started (R123, R130). -/
def latchCount (S : Setup) (m : Measure) : Measure :=
  { m with
    latched := some m.count
    measured := measuredOf S m.offset m.count
    change := countChange m.latched m.count
    displacement := countChange m.latched m.count * S.nmPerCount
    converting := true }

/-! ## Speed tests -/

/-- The move inputs of the cue (R25). -/
def cueMove (s : State) : Option MoveInputs := s.ctl.ctx.bind (·.move)

/-- The limit OVERSPEED compares with (R138). -/
def speedLimit (s : State) : Nat :=
  match cueMove s with
  | some m => m.vmax
  | none => if s.seq.axis = .homing then s.store.live.homeSpeed * 1000 else s.store.live.axisVmax * 1000

/-- The displacement exceeds 115 % of the limit (R138). -/
def overspeedNow (s : State) : Bool := decide (115 * speedLimit s < 100 * s.meas.displacement.natAbs)

/-- The count change exceeds the encoder jump limit (R141). -/
def encoderNow (s : State) : Bool := decide (s.store.live.encJump < s.meas.change.natAbs)

/-- A condition's presence without its response. -/
def setPresence (c : Condition) (detected : Bool) (s : State) : State :=
  if detected then markPresent c s else markAbsent c s

/-- The position becomes UNREFERENCED where ENCODER is raised (R124, R141). -/
def loseReference (raised : Bool) (s : State) : State :=
  if raised then s.onMeas fun m => { m with referenced := false } else s

/-- The response to a condition that has just occurred. -/
def respondIf (c : Condition) (occurred : Bool) (s : State) : State := if occurred then respond c s else s

/-! ## Guard and coupler -/

/-- The axis is HOMING and searches (R37). -/
def homingSearch (s : State) : Bool :=
  decide (s.seq.axis = .homing) && s.gen.homing.any fun h => decide (h.phase = .search)

/-- A rule active during the homing search hands the homing abort, once for a homing move (R38, R120). `searching` says
that the period found the axis searching; a reference taken in the same period does not keep the abort away (log 13). -/
def homingAbort (searching : Bool) (s : State) : State :=
  if searching = true ∧ clearVerdict s = false ∧ s.guard.notice = false then
    onRun (fun r => { r with aborted := true })
      (onHoming (fun h => { h with phase := .stop }) (s.onGuard fun g => { g with notice := true }))
  else s

/-- The axis is STOPPING with a kind. -/
def stoppingOf (s : State) (k : StopKind) : Bool := decide (s.seq.axis = .stopping) && decide (s.seq.stopKind = k)

/-- A period in which a velocity target is computed: RUN mode, and SUSPENDED for the resume test (R98). -/
def targetPeriod (s : State) : Bool :=
  decide (s.seq.axis = .moving) || decide (s.seq.axis = .held) || decide (s.seq.axis = .suspended) ||
    stoppingOf s .controlled

/-- PACED_STALE and the stale report of a context, recomputed (R101). -/
def coupleContext (progress : Nat) (ps : List Peer) (x : CueContext) : CueContext :=
  { x with
    pacedStale := pacedStaleOf ps x.views
    staleReport := staleReportOf x.record.cue.number progress ps x.views }

/-- The coupler's flags, recomputed in the periods of R98 (log 26). -/
def couple (s : State) : State := if targetPeriod s then onCtx (coupleContext s.gen.progress s.peers) s else s

/-! ## The velocity target -/

/-- The pacing velocity of the cue (R94, R99). -/
def cueVg (s : State) (x : CueContext) (vlim : Nat) : Nat :=
  match x.record.cue.group with
  | none => vlim
  | some g => pacingVelocity vlim g.skew s.gen.progress (leastProgress x.record.cue.number s.peers x.views)

/-- Vstop is 0 (R27). -/
def stopDemanded (s : State) (x : CueContext) : Bool :=
  !s.ctl.enableFresh || stoppingOf s .controlled || x.staleReport

/-- v_target (R27). -/
def velocityTarget (s : State) (x : CueContext) (m : MoveInputs) : Nat :=
  let vlim := vLimit m.vmax s.ctl.override
  min vlim (min (cueVg s x vlim) (if stopDemanded s x then 0 else vlim))

/-! ## The generator -/

/-- The five modes (R24). -/
inductive GenMode where
  | track | hold | run | fast | homing
  deriving DecidableEq, Repr

/-- The mode the axis state gives (R24). -/
def modeOf (s : State) : GenMode :=
  match s.seq.axis with
  | .unaddressed | .rest | .waking | .parked => .track
  | .releasing | .setting | .suspended | .recovering => .hold
  | .tripped => if driveEn s then .hold else .track
  | .moving | .held => .run
  | .stopping =>
    match s.seq.stopKind with
    | .controlled => .run
    | .fast => .fast
  | .homing => .homing

/-- What the generator reports at the end of a period (R34, R36, R37). -/
inductive GenReport where
  | quiet
  | ran (v : Nat) (arrived : Bool)
  | slowed (v : Nat)
  | homed (v : Nat) (ended : Bool)
  | resumes
  deriving DecidableEq, Repr

/-- The set-point after a step of a cue: the target exactly where the period arrives (R32, R36). -/
def steppedPoint (m : MoveInputs) (s : Position) (p : PeriodStep) : Position :=
  if p.arrived then BitVec.ofNat 48 m.target else forward m.dir s p.step

/-- R_e (R29). -/
def roomOf (s : State) (m : MoveInputs) : Nat := envelopeRoom m.dir s.guard.lower s.guard.upper s.gen.s

/-- The period's step in RUN mode (R30 to R33). -/
def runStep (s : State) (x : CueContext) (m : MoveInputs) : PeriodStep :=
  runPeriod s.gen.v (velocityTarget s x m) m.accel m.decel (remainingTo m s.gen.s) (roomOf s m)

/-- The generator after a RUN period. -/
def runGen (m : MoveInputs) (p : PeriodStep) (g : Generator) : Generator :=
  { g with s := steppedPoint m g.s p, v := p.v, overrun := g.overrun || p.overrun }

/-- RUN mode (R30 to R35). Without move inputs there is no path to follow (log 38). -/
def runMode (s : State) : State × GenReport :=
  match s.ctl.ctx with
  | none => (s.onGen fun g => { g with v := 0 }, .quiet)
  | some x =>
    match x.move with
    | none => (s.onGen fun g => { g with v := 0 }, .quiet)
    | some m => let p := runStep s x m; (s.onGen (runGen m p), .ran p.v p.arrived)

/-- The period's step in FAST mode, for a cue (R36). -/
def fastStep (s : State) (m : MoveInputs) : PeriodStep :=
  fastPeriod s.gen.v s.store.live.emergency (remainingTo m s.gen.s)

/-- The period's step in FAST mode, for a homing move (R36). -/
def fastHomingStep (s : State) (h : HomingInputs) : PeriodStep :=
  fastPeriod s.gen.v s.store.live.emergency (homingRemaining h s.gen.s)

/-- FAST mode (R36). Without the inputs of a cue or a homing move the velocity is 0, which ends the stop (log 38). -/
def fastMode (s : State) : State × GenReport :=
  match cueMove s with
  | some m =>
    let p := fastStep s m
    (s.onGen fun g => { g with s := steppedPoint m g.s p, v := p.v }, .slowed p.v)
  | none =>
    match s.gen.homing with
    | some h =>
      let p := fastHomingStep s h
      (s.onGen fun g => { g with s := forward h.dir g.s p.step, v := p.v }, .slowed p.v)
    | none => (s.onGen fun g => { g with v := 0 }, .slowed 0)

/-- The velocity target of a homing move (R37). -/
def homingTarget (h : HomingInputs) : Nat :=
  match h.phase with
  | .search => h.vmax
  | .stop => 0

/-- The period's step in HOMING mode (R37). -/
def homingStep (s : State) (h : HomingInputs) : PeriodStep :=
  homingPeriod s.gen.v (homingTarget h) h.accel (homingRemaining h s.gen.s)

/-- HOMING mode (R37). Without homing inputs there is no path to follow (log 38). -/
def homingMode (s : State) : State × GenReport :=
  match s.gen.homing with
  | none => (s.onGen fun g => { g with v := 0 }, .quiet)
  | some h =>
    let p := homingStep s h
    (s.onGen fun g => { g with s := forward h.dir g.s p.step, v := p.v }, .homed p.v p.arrived)

/-- The resume test of SUSPENDED (R12, R34). -/
def resumeTest (s : State) : Bool :=
  match s.ctl.ctx with
  | none => false
  | some x =>
    match x.move with
    | none => false
    | some m => resumeAllowed (velocityTarget s x m) m.accel (remainingTo m s.gen.s) (roomOf s m)

/-- HOLD mode: the set-point stays; in SUSPENDED the resume test is evaluated (R24, R34). -/
def holdMode (s : State) : State × GenReport :=
  (s.onGen fun g => { g with v := 0 },
    if s.seq.axis = .suspended ∧ resumeTest s = true then .resumes else .quiet)

/-- TRACK mode: the set-point is the measured position (R24). -/
def trackMode (s : State) : State × GenReport :=
  (s.onGen fun g => { g with s := s.meas.measured, v := 0 }, .quiet)

/-- One computation of the generator in its mode (R24). -/
def generate (s : State) : State × GenReport :=
  match modeOf s with
  | .track => trackMode s
  | .hold => holdMode s
  | .run => runMode s
  | .fast => fastMode s
  | .homing => homingMode s

/-! ## What the period leaves behind -/

/-- The progress of a context in phase RUNNING or ENDING, never lowered (R39). A cue ENDING before its release has
completed has no move to compute from, and its progress stays (log 47). -/
def updateProgress (s : State) : State :=
  match s.ctl.ctx with
  | none => s
  | some x =>
    match x.move with
    | none => s
    | some m =>
      if x.phase = .starting then s
      else s.onGen fun g => { g with progress := max g.progress (progressValue m g.s) }

/-- The direction the set-point moves in, if it may. -/
def movingDir (s : State) (mode : GenMode) : Option Dir :=
  match mode with
  | .track => none
  | .hold => none
  | .run => (cueMove s).map (·.dir)
  | .fast => (cueMove s).elim (s.gen.homing.map (·.dir)) fun m => some m.dir
  | .homing => s.gen.homing.map (·.dir)

/-- The stop point of a cue's move at a deceleration (R40). -/
def cueStopPoint (s : State) (m : MoveInputs) (decel : Nat) : Position :=
  stopPointOf m.dir s.gen.s s.gen.v decel (remainingTo m s.gen.s)

/-- The stop point of a homing move at a deceleration (R40). -/
def homingStopPoint (s : State) (h : HomingInputs) (decel : Nat) : Position :=
  stopPointOf h.dir s.gen.s s.gen.v decel (homingRemaining h s.gen.s)

/-- The stop point of a period (R40). -/
def stopPointIn (s : State) (mode : GenMode) : Position :=
  match mode with
  | .track => s.gen.s
  | .hold => s.gen.s
  | .run =>
    match cueMove s with
    | none => s.gen.s
    | some m => cueStopPoint s m m.decel
  | .fast =>
    match cueMove s with
    | some m => cueStopPoint s m s.store.live.emergency
    | none =>
      match s.gen.homing with
      | none => s.gen.s
      | some h => homingStopPoint s h s.store.live.emergency
  | .homing =>
    match s.gen.homing with
    | none => s.gen.s
    | some h => homingStopPoint s h h.accel

/-- The set-point velocity signed, 0 in TRACK and HOLD (R42, R44). -/
def velocityIn (s : State) (mode : GenMode) : Int :=
  match movingDir s mode with
  | none => 0
  | some d => signedVelocity d s.gen.v

/-- The stop point and the values held for the line port (R40, R44, log 35). -/
def publish (mode : GenMode) (s : State) : State :=
  let stop := stopPointIn s mode
  s.onGen fun g =>
    { g with
      stopPoint := stop
      pub := ⟨g.s.toNat / 1000, velocityIn s mode, stop.toNat / 1000⟩ }

/-- The error e of the period (R42). -/
def errorNow (s : State) : Int := positionError s.gen.s s.meas.measured

/-- The duty of the period: 2048 or the position loop's (R24, R42, R43). -/
def dutyIn (s : State) (mode : GenMode) : Nat :=
  if mode = .track ∨ s.seq.axis = .suspended ∨ s.seq.axis = .recovering then 2048
  else dutyOf s.store.live (reference s.store.live (velocityIn s mode) (errorNow s))

/-- FOLLOWING, judged while BRAKE_REL is asserted (R139, logs 13, 14). -/
def judgeFollowing (s : State) : State :=
  if brakeRel s then evaluate .following (decide (s.store.live.followLimit * 1000 < (errorNow s).natAbs)) s
  else markAbsent .following s

/-- OVERSPEED, FOLLOWING and ENCODER of a period, after the generator: OVERSPEED and ENCODER are found from the count it
latched, then the three are taken in ascending order of code (R138, R139, R141, R143, logs 13, 37). A trip so takes
effect on the generator's mode from the next period (R24). -/
def judgeMotion (s : State) : State :=
  let tooFast := overspeedNow s
  let jumped := encoderNow s
  let fastNew := tooFast && !isPresent s .overspeed
  let jumpNew := jumped && !isPresent s .encoder
  let t := loseReference jumped (setPresence .encoder jumped (setPresence .overspeed tooFast s))
  respondIf .encoder jumpNew (judgeFollowing (respondIf .overspeed fastNew t))

/-! ## The sequencer's part -/

/-- MOVING becomes HELD and the hold-to-brake timer starts (R10). -/
def enterHeld (s : State) : State :=
  (setAxis .held s).onSeq fun q => { q with hold := some (s.store.live.holdToBrake * 1000) }

/-- The report of a RUN period (R10, R13, R14, R34). -/
def actOnRun (v : Nat) (arrived : Bool) (s : State) : State :=
  match s.seq.axis with
  | .moving => if arrived then arrive s else if v = 0 then enterHeld s else s
  | .held => if arrived then arrive s else if v = 0 then s else setAxis .moving s
  | .stopping =>
    match s.seq.stopKind with
    | .controlled => if arrived || decide (v = 0) then endControlledStop s else s
    | .fast => s
  | .unaddressed | .rest | .waking | .parked | .releasing | .suspended | .setting | .recovering | .homing
  | .tripped => s

/-- The report of a FAST period (R19, R36). -/
def actOnFast (v : Nat) (s : State) : State := if stoppingOf s .fast && decide (v = 0) then endFastStop s else s

/-- HOME_MISS is raised: the register is disarmed, the condition latched, the FAST demand made (R128). -/
def raiseHomeMiss (s : State) : State :=
  let s := s.onMeas fun m => { m with capture := .disarmed }
  fastLatch .homeMiss (latch .homeMiss (onRun (fun r => { r with missed := true }) s))

/-- A homing move ends for the sequencer (R15, R129). -/
def endHoming (s : State) : State := enterSetting .parked (recordHoming s)

/-- The homing phase is STOP. -/
def homingStopped (s : State) : Bool := s.gen.homing.any fun h => decide (h.phase = .stop)

/-- The report of a HOMING period (R15, R37, R128). -/
def actOnHoming (v : Nat) (ended : Bool) (s : State) : State :=
  if s.seq.axis = .homing then
    if ended ∧ s.meas.capture = .armed then raiseHomeMiss s
    else if v = 0 ∧ (ended = true ∨ homingStopped s = true) then endHoming s
    else s
  else s

/-- The report of a period acted on, in the state the report belongs to (R34, log 14). -/
def actOn (r : GenReport) (s : State) : State :=
  match r with
  | .quiet => s
  | .ran v arrived => actOnRun v arrived s
  | .slowed v => actOnFast v s
  | .homed v ended => actOnHoming v ended s
  | .resumes => if s.seq.axis = .suspended then beginRelease .none s else s

/-! ## The period -/

/-- The part of the period before the generator runs, on an axis that is watched. -/
def beforeGenerator (s : State) : State :=
  couple (homingAbort (homingSearch s) (guardCompute ((applyReference s).onMeas (latchCount s.store.live))))

/-- The generator's part of the period: its step, progress, marks, published values, and the duty it writes (R22). -/
def runGenerator (s : State) : State × GenReport :=
  let mode := modeOf s
  let stepped := generate s
  let t := fireMarks s.gen.s (updateProgress stepped.1)
  let t := publish mode t
  (writeDuty (dutyIn t mode) t, stepped.2)

/-- PROFILE_PERIOD (R22). An UNADDRESSED part latches nothing and computes no guard (R110, R123, R130). -/
def execProfilePeriod (s : State) : Host.Outcome State Fault Refusal :=
  if s.held.isSome then .next s
  else
    let ran := runGenerator (if watched s then beforeGenerator s else s)
    let t := if watched s then judgeMotion ran.1 else ran.1
    .next (finish (actOn ran.2 t))

end Sys2Proof.Machine
end

