-- ==== Sys2Proof/Machine/Requests.lean ====
section
/-! DEFINITION. The requests to the cue table and the stores (chapters 3 and 11): CUELOAD, CUEDROP, CUEASK, SAVE, SETUP,
and the completions of their writes. -/

namespace Sys2Proof.Machine

/-! ## The cue table -/

/-- The detail of CUE_IN_USE: 1 armed, 2 running (R53, R57). -/
def useDetail (s : State) (n : Nat) : Nat := if isRunning s n then 2 else 1

/-- The number is in use (R57). -/
def inUse (s : State) (n : Nat) : Bool := isArmed s n || isRunning s n

/-- The refusal of a CUELOAD, with its detail (R54). -/
def loadRefusal (s : State) (r : CueLoad) : Option (ReplyResult × Nat) :=
  if s.store.saving.isSome then some (.saving, 0)
  else
    match firstBadField s.store.live s.station r with
    | some ident => some (.badField, ident)
    | none =>
      let n := (recordOf r).number
      if inUse s n then some (.cueInUse, useDetail s n)
      else if 200 ≤ s.table.length ∧ (findCue s.table n).isNone = true then some (.tableFull, 200)
      else none

/-- A CUELOAD acted on (R54, R56). -/
def loadCue (h : Hdr) (r : CueLoad) (s : State) : State :=
  match loadRefusal s r with
  | some (result, detail) => answer h .cueload result detail s
  | none =>
    let taken := takenRecord (recordOf r)
    answer h .cueload .done taken.sig.toNat (s.onTable (insertRecord taken))

/-- CUELOAD (R54). -/
def execCueload (h : Hdr) (req : CueLoad) (s : State) : Host.Outcome State Fault Refusal :=
  if requestTaken s h then .next (loadCue h req s) else .next s

/-- The refusal of a CUEDROP, with its detail (R58). -/
def dropRefusal (s : State) (n : Nat) : Option (ReplyResult × Nat) :=
  if s.store.saving.isSome then some (.saving, 0)
  else if (findCue s.table n).isNone then some (.noCue, 0)
  else if inUse s n then some (.cueInUse, useDetail s n)
  else none

/-- The table without a number's record (R58). -/
def removeRecord (n : Nat) (t : List CueRecord) : List CueRecord := t.filter fun r => decide (r.cue.number ≠ n)

/-- A CUEDROP acted on (R58). -/
def dropCue (h : Hdr) (n : Nat) (s : State) : State :=
  match dropRefusal s n with
  | some (result, detail) => answer h .cuedrop result detail s
  | none =>
    let s := s.onTable (removeRecord n)
    answer h .cuedrop .done s.table.length s

/-- CUEDROP (R58). -/
def execCuedrop (h : Hdr) (cue : Nat) (s : State) : Host.Outcome State Fault Refusal :=
  if requestTaken s h then .next (dropCue h cue s) else .next s

/-- The record a CUEASK finds: of the number, or the least number not below it (R59). -/
def askedRecord (t : List CueRecord) (n : Nat) : AskForm → Option CueRecord
  | .exact => findCue t n
  | .fromNumber => t.find? fun r => decide (n ≤ r.cue.number)

/-- The CUEREPORT of a CUEASK (R59), addressed to its sender as a REPLY is, which the spec leaves open (R163, log 58). -/
def reportFor (h : Hdr) (n : Nat) (form : AskForm) (s : State) : CueReport :=
  ⟨h.sender, h.seq, n, form, s.table.length,
    (askedRecord s.table n form).map fun r => (r, useOf s r.cue.number)⟩

/-- CUEASK (R59). -/
def execCueask (h : Hdr) (cue : Nat) (form : AskForm) (s : State) : Host.Outcome State Fault Refusal :=
  if requestTaken s h then .next (queueReply (.report (reportFor h cue form s)) s) else .next s

/-! ## Reservations -/

/-- A reservation for a request at the end of the REPLY queue (R163). -/
def reserve (h : Hdr) (kind : RequestKind) (s : State) : State := queueReply (.reservation kind h.sender h.seq) s

/-- The first reservation of a kind becomes its REPLY DONE in the same place (R163). -/
def fulfil (kind : RequestKind) (detail : Nat) : List (Queued ReplyBody) → List (Queued ReplyBody)
  | [] => []
  | e :: rest =>
    match e.body with
    | .reservation k addressee seq =>
      if k = kind then { e with body := .reply ⟨addressee, kind, seq, .done, detail⟩ } :: rest
      else e :: fulfil kind detail rest
    | .reply _ => e :: fulfil kind detail rest
    | .report _ => e :: fulfil kind detail rest

/-! ## SAVE -/

/-- A SAVE is accepted: a place is reserved, the store marked invalid, the writing of the table begins (R170). -/
def acceptSave (h : Hdr) (s : State) : State :=
  (reserve h .save s).onStore fun t =>
    { t with nvCues := { t.nvCues with valid := false }, cueState := .bad, saving := some (s.table.map (·.cue)) }

/-- A SAVE acted on: refused SAVING while another is in flight, else accepted (R170). -/
def takeSave (h : Hdr) (s : State) : State :=
  if s.store.saving.isSome then answer h .save .saving 0 s else acceptSave h s

/-- A request that arrives while a SETUP is being written waits, oldest first (R159). -/
def joinWaiting (r : StoreRequest) (s : State) : State := s.onStore fun t => { t with waiting := t.waiting ++ [r] }

/-- SAVE (R170). One that arrives while a SETUP is being written is taken after it (R159, log 52). -/
def execSave (h : Hdr) (s : State) : Host.Outcome State Fault Refusal :=
  if requestTaken s h then .next (if s.store.writing then joinWaiting (.save h) s else takeSave h s) else .next s

/-- SAVE_COMPLETE (R170): count and check are written and the reservation becomes the REPLY DONE. -/
def execSaveComplete (s : State) : Host.Outcome State Fault Refusal :=
  match s.store.saving with
  | none => .next s
  | some records =>
    let s := s.onStore fun t =>
      { t with
        nvCues := writtenCues records
        cueState := if records.isEmpty then .empty else .good
        saving := none }
    .next (s.onLine fun l => { l with replies := fulfil .save records.length l.replies })

/-! ## SETUP -/

/-- The axis states in which a SETUP is taken (R169). -/
def setupIdle (s : State) : Bool :=
  decide (s.seq.axis = .rest) || decide (s.seq.axis = .parked) || decide (s.seq.axis = .tripped)

/-- A SETUP is accepted: the image takes the value, the revision rises, the write begins, a place is reserved (R169). -/
def acceptSetup (h : Hdr) (image : Setup) (s : State) : State :=
  (reserve h .setup s).onStore fun t => { t with image := image, revision := t.revision + 1, writing := true }

/-- A SETUP acted on: MAINT_KEY and the axis state are those of that moment (R169). -/
def takeSetup (h : Hdr) (ident : Nat) (value : SetupValue) (s : State) : State :=
  if !s.inp.maintKey then answer h .setup .notMaint 0 s
  else if !setupIdle s then answer h .setup .notIdle 0 s
  else
    match applySetup s.station s.store.image ident value with
    | none => answer h .setup .range ident s
    | some image => acceptSetup h image s

/-- SETUP (R169). One that finds no free REPLY place is discarded (R159); one that arrives while an earlier one is being
written is taken after it (R159, log 33). -/
def execSetup (h : Hdr) (ident : Nat) (value : SetupValue) (maintKey : Bool) (s : State) :
    Host.Outcome State Fault Refusal :=
  if consoleFrameTaken s h && decide (h.addressee = s.station) then
    let s := s.onInp fun p => { p with maintKey := maintKey }
    if !replyFree s then .next s
    else if s.store.writing then .next (joinWaiting (.setup h ident value) s)
    else .next (takeSetup h ident value s)
  else .next s

/-- MAINT_KEY is read with no command to carry its level: a free choice, counted (log 62). -/
def readKey (s : State) : State :=
  { s.onInp fun p => { p with maintKey := Config.maintKey s.freeCount } with freeCount := s.freeCount + 1 }

/-- A request that has waited is acted on (R159, R169, R170). -/
def takeWaiting (r : StoreRequest) (s : State) : State :=
  match r with
  | .setup h ident value => takeSetup h ident value (readKey s)
  | .save h => takeSave h s

/-- The waiting requests are taken in order until a SETUP among them begins a write (R159). -/
def drainWaiting : List StoreRequest → State → State
  | [], s => s.onStore fun t => { t with waiting := [] }
  | r :: rest, s =>
    let s := takeWaiting r s
    if s.store.writing then s.onStore fun t => { t with waiting := rest } else drainWaiting rest s

/-- SETUP_WRITE_COMPLETE (R169): the block is written, the reservation becomes the REPLY DONE with the new revision, and the
requests that waited are taken (R159). -/
def execSetupWriteComplete (s : State) : Host.Outcome State Fault Refusal :=
  if s.store.writing then
    let s := s.onStore fun t => { t with nvSetup := writtenSetup t.image t.revision, writing := false }
    let s := s.onLine fun l => { l with replies := fulfil .setup s.store.revision.toNat l.replies }
    .next (drainWaiting s.store.waiting s)
  else .next s

end Sys2Proof.Machine
end

