-- ==== Sys2Proof/Machine/Receive.lean ====
section
/-! DEFINITION. The receive side of the line port (chapter 10): a string of bytes checked, filtered, read, and discarded
or handed on. FRAME_DISCARDED. -/

namespace Sys2Proof.Machine

/-- A frame handed to the block that owns its kind (R159); a command that is no frame is not handed on. -/
def handOn (i : Instr) (s : State) : Host.Outcome State Fault Refusal :=
  match i with
  | .statusFrame h payload => execStatusFrame h payload s
  | .markFrame h cue mark => execMarkFrame h cue mark s
  | .standby h cue set window => execStandby h cue set window s
  | .go h cue => execGo h cue s
  | .cancel h cue set => execCancel h cue set s
  | .stop h set => execStop h set s
  | .enable h set override count => execEnable h set override count s
  | .clear h set => execClear h set s
  | .home h => execHome h s
  | .cueload h req => execCueload h req s
  | .cuedrop h cue => execCuedrop h cue s
  | .cueask h cue form => execCueask h cue form s
  | .save h => execSave h s
  | .setup h ident value maintKey => execSetup h ident value maintKey s
  | .linereset h set => execLinereset h set s
  | .powerOn | .supplyDip | .resetPin | .powerOnSequence _ | .saveComplete | .setupWriteComplete | .frameDiscarded _
  | .estopLoopOpen | .estopLoopClosed | .driveReadyAsserted | .driveReadyLost | .driveFaultAsserted
  | .driveFaultDeasserted | .ultimateOpen _ | .ultimateClosed | .brakeFbReleased | .brakeFbSet | .homeSwEdge _
  | .encoderStep _ | .profilePeriod | .pwmBoundary | .loadConversionComplete _ | .peerAgeing | .wakeTimeout
  | .brakeReleaseTimeout | .brakeSetTimeout | .holdToBrakeExpiry | .restTimerExpiry | .lapseTimerExpiry
  | .windowExpiry _ | .followDelayExpiry _ | .holdLimitExceeded | .recoveryWaitExceeded | .dwellExpiry
  | .statusTimerExpiry | .transmitAttempt | .frameSent | .attemptFailed => .next s

/-- FRAME_DISCARDED (R153, R158, R159): a string of bytes that fails the check or a test of the filter, or whose payload
is not exactly the fields its owner reads, is discarded without effect. Bytes that pass every test are no discarded
frame: they are handed on as the frame they spell. -/
def execFrameDiscarded (raw : List Byte) (s : State) : Host.Outcome State Fault Refusal :=
  match receivedFrame s raw with
  | none => .next s
  | some i => handOn i s

end Sys2Proof.Machine
end

