-- ==== Sys2Proof/Machine/Timers.lean ====
section
/-! DEFINITION. The expiries of the sequencer's timers and of the status timer (chapters 1 and 10). An expiry acts when
its timer runs in the state its rule names; what remains on it is not looked at (log 43). -/

namespace Sys2Proof.Machine

/-- WAKE_TIMEOUT (R7): DRIVE_READY is raised, latched, and trips the axis. -/
def execWakeTimeout (s : State) : Host.Outcome State Fault Refusal :=
  if s.seq.axis = .waking ∧ s.seq.wake.isSome = true then
    .next (finish (dropDemand .driveReady (latch .driveReady s)))
  else .next s

/-- BRAKE_RELEASE_TIMEOUT (R9): BRAKE_RELEASE is latched, the brake and the drive are off at once. -/
def execBrakeReleaseTimeout (s : State) : Host.Outcome State Fault Refusal :=
  if s.seq.axis = .releasing ∧ s.seq.brake.isSome = true then
    .next (finish (enterTripped (.fault .brakeRelease) (latch .brakeRelease s)))
  else .next s

/-- BRAKE_SET is present from the expiry while BRAKE_FB reads released (R141, log 42). -/
def raiseBrakeSet (s : State) : State :=
  let s := if s.inp.brakeReleased then markPresent .brakeSet s else s
  enterTripped (.fault .brakeSet) (latch .brakeSet s)

/-- BRAKE_SET_TIMEOUT (R16): BRAKE_SET is latched, the axis is TRIPPED with the drive holding. -/
def execBrakeSetTimeout (s : State) : Host.Outcome State Fault Refusal :=
  if s.seq.axis = .setting ∧ s.seq.brake.isSome = true then .next (finish (raiseBrakeSet s)) else .next s

/-- HOLD_TO_BRAKE_EXPIRY (R11): the brake is set toward SUSPENDED. -/
def execHoldToBrakeExpiry (s : State) : Host.Outcome State Fault Refusal :=
  if s.seq.axis = .held ∧ s.seq.hold.isSome = true then .next (finish (enterSetting .suspended s)) else .next s

/-- REST_TIMER_EXPIRY (R5): PARKED becomes REST, the drive off. -/
def execRestTimerExpiry (s : State) : Host.Outcome State Fault Refusal :=
  if s.seq.axis = .parked ∧ s.seq.rest.isSome = true then .next (finish (setAxis .rest s)) else .next s

/-- STATUS_TIMER_EXPIRY (R161): a STATUS is built. -/
def execStatusTimerExpiry (s : State) : Host.Outcome State Fault Refusal :=
  if s.line.timer.isSome then .next (buildStatus s) else .next s

end Sys2Proof.Machine
end

