-- ==== Sys2Proof/Machine/Transmit.lean ====
section
/-! DEFINITION. The port's attempts on the line (chapter 10): TRANSMIT_ATTEMPT, FRAME_SENT, ATTEMPT_FAILED. The idle gap
and the running of a backoff are the line's time and come with the command (log 30). -/

namespace Sys2Proof.Machine

/-- TRANSMIT_ATTEMPT (R155, R160): at most one attempt is on the line; an UNADDRESSED part sends nothing. -/
def execTransmitAttempt (s : State) : Host.Outcome State Fault Refusal :=
  if addressed s && s.line.attempt.isNone then .next (s.onLine beginAttempt) else .next s

/-- FRAME_SENT (R156): the frame of the attempt leaves its store. -/
def execFrameSent (s : State) : Host.Outcome State Fault Refusal :=
  match s.line.attempt with
  | none => .next s
  | some a => .next (s.onLine fun l => { leaveStore a l with attempt := none })

/-- ATTEMPT_FAILED (R156, R157). -/
def execAttemptFailed (s : State) : Host.Outcome State Fault Refusal :=
  match s.line.attempt with
  | none => .next s
  | some a => .next (s.onLine (failAttempt s.station a))

end Sys2Proof.Machine
end

