-- ==== Sys2Proof/Machine/Dispatch.lean ====
section
/-! DEFINITION. Every command to its meaning, one arm each. -/

namespace Sys2Proof.Machine

def exec (i : Instr) (s : State) : Host.Outcome State Fault Refusal :=
  match i with
  | .powerOn => Sys2Proof.Machine.execPowerOn s
  | .supplyDip => Sys2Proof.Machine.execSupplyDip s
  | .resetPin => Sys2Proof.Machine.execResetPin s
  | .powerOnSequence straps => Sys2Proof.Machine.execPowerOnSequence straps s
  | .statusFrame h payload => Sys2Proof.Machine.execStatusFrame h payload s
  | .markFrame h cue mark => Sys2Proof.Machine.execMarkFrame h cue mark s
  | .standby h cue set window => Sys2Proof.Machine.execStandby h cue set window s
  | .go h cue => Sys2Proof.Machine.execGo h cue s
  | .cancel h cue set => Sys2Proof.Machine.execCancel h cue set s
  | .stop h set => Sys2Proof.Machine.execStop h set s
  | .enable h set override count => Sys2Proof.Machine.execEnable h set override count s
  | .clear h set => Sys2Proof.Machine.execClear h set s
  | .home h => Sys2Proof.Machine.execHome h s
  | .cueload h req => Sys2Proof.Machine.execCueload h req s
  | .cuedrop h cue => Sys2Proof.Machine.execCuedrop h cue s
  | .cueask h cue form => Sys2Proof.Machine.execCueask h cue form s
  | .save h => Sys2Proof.Machine.execSave h s
  | .saveComplete => Sys2Proof.Machine.execSaveComplete s
  | .setup h ident value maintKey => Sys2Proof.Machine.execSetup h ident value maintKey s
  | .setupWriteComplete => Sys2Proof.Machine.execSetupWriteComplete s
  | .linereset h set => Sys2Proof.Machine.execLinereset h set s
  | .frameDiscarded raw => Sys2Proof.Machine.execFrameDiscarded raw s
  | .estopLoopOpen => Sys2Proof.Machine.execEstopLoopOpen s
  | .estopLoopClosed => Sys2Proof.Machine.execEstopLoopClosed s
  | .driveReadyAsserted => Sys2Proof.Machine.execDriveReadyAsserted s
  | .driveReadyLost => Sys2Proof.Machine.execDriveReadyLost s
  | .driveFaultAsserted => Sys2Proof.Machine.execDriveFaultAsserted s
  | .driveFaultDeasserted => Sys2Proof.Machine.execDriveFaultDeasserted s
  | .ultimateOpen sw => Sys2Proof.Machine.execUltimateOpen sw s
  | .ultimateClosed => Sys2Proof.Machine.execUltimateClosed s
  | .brakeFbReleased => Sys2Proof.Machine.execBrakeFbReleased s
  | .brakeFbSet => Sys2Proof.Machine.execBrakeFbSet s
  | .homeSwEdge active => Sys2Proof.Machine.execHomeSwEdge active s
  | .encoderStep step => Sys2Proof.Machine.execEncoderStep step s
  | .profilePeriod => Sys2Proof.Machine.execProfilePeriod s
  | .pwmBoundary => Sys2Proof.Machine.execPwmBoundary s
  | .loadConversionComplete raw => Sys2Proof.Machine.execLoadConversionComplete raw s
  | .peerAgeing => Sys2Proof.Machine.execPeerAgeing s
  | .wakeTimeout => Sys2Proof.Machine.execWakeTimeout s
  | .brakeReleaseTimeout => Sys2Proof.Machine.execBrakeReleaseTimeout s
  | .brakeSetTimeout => Sys2Proof.Machine.execBrakeSetTimeout s
  | .holdToBrakeExpiry => Sys2Proof.Machine.execHoldToBrakeExpiry s
  | .restTimerExpiry => Sys2Proof.Machine.execRestTimerExpiry s
  | .lapseTimerExpiry => Sys2Proof.Machine.execLapseTimerExpiry s
  | .windowExpiry cue => Sys2Proof.Machine.execWindowExpiry cue s
  | .followDelayExpiry cue => Sys2Proof.Machine.execFollowDelayExpiry cue s
  | .holdLimitExceeded => Sys2Proof.Machine.execHoldLimitExceeded s
  | .recoveryWaitExceeded => Sys2Proof.Machine.execRecoveryWaitExceeded s
  | .dwellExpiry => Sys2Proof.Machine.execDwellExpiry s
  | .statusTimerExpiry => Sys2Proof.Machine.execStatusTimerExpiry s
  | .transmitAttempt => Sys2Proof.Machine.execTransmitAttempt s
  | .frameSent => Sys2Proof.Machine.execFrameSent s
  | .attemptFailed => Sys2Proof.Machine.execAttemptFailed s

end Sys2Proof.Machine
end

