-- ==== Sys2Proof/Machine/Idle.lean ====
section
/-! DEFINITION. Time with no command waiting (log 1): an expiry that is due is carried out, in a fixed order; with none
due, one millisecond passes on every timer that counts in ms. The profile period, the ageing of peers and the PWM
boundary are commands and are not made here. -/

namespace Sys2Proof.Machine

/-- A timer has run out. -/
def ranOut (t : Option Nat) : Bool := decide (t = some 0)

/-- The states in which the hold time grows (R71). -/
def holdCounts (a : AxisState) : Bool :=
  match a with
  | .held | .setting | .suspended | .recovering | .releasing => true
  | .unaddressed | .rest | .waking | .parked | .moving | .stopping | .homing | .tripped => false

/-- The hold limit of the cue, ms (R71). -/
def holdLimitMs (x : CueContext) : Nat := x.record.cue.hold * 1000

/-- The hold time of a RUNNING cue exceeds its hold limit (R71). -/
def holdExceeded (s : State) : Bool :=
  holdCounts s.seq.axis && s.ctl.ctx.any fun x => decide (x.phase = .running) && decide (holdLimitMs x < x.holdTime)

/-- The recovery wait exceeds the hold limit (R147). -/
def waitExceeded (s : State) : Bool :=
  waitCounts s &&
    match s.ctl.ctx, s.sup.recovery with
    | some x, some r => decide (holdLimitMs x < r.wait)
    | _, _ => false

/-- The dwell has run out (R146). -/
def dwellDone (s : State) : Bool := dwellRuns s && s.sup.recovery.any fun r => ranOut r.dwell

/-- A command, where it is due. -/
def dueIf (b : Bool) (i : Instr) : List Instr := if b then [i] else []

/-- The windows that have run out, oldest first (R64). -/
def windowsDone (s : State) : List Instr :=
  (s.ctl.armed.filter fun a => ranOut a.window).map fun a => .windowExpiry a.cue

/-- The delays that have run out, oldest first (R76). -/
def delaysDone (s : State) : List Instr :=
  (s.ctl.armed.filter fun a => decide (a.trigger = some (.delaying 0))).map fun a => .followDelayExpiry a.cue

/-- Every expiry that is due, in the order in which the model takes them (log 1). -/
def allDue (s : State) : List Instr :=
  dueIf (decide (s.seq.axis = .waking) && ranOut s.seq.wake) .wakeTimeout ++
    dueIf (decide (s.seq.axis = .releasing) && ranOut s.seq.brake) .brakeReleaseTimeout ++
    dueIf (decide (s.seq.axis = .setting) && ranOut s.seq.brake) .brakeSetTimeout ++
    dueIf (decide (s.seq.axis = .held) && ranOut s.seq.hold) .holdToBrakeExpiry ++
    dueIf (decide (s.seq.axis = .parked) && ranOut s.seq.rest) .restTimerExpiry ++
    dueIf (ranOut s.ctl.lapse) .lapseTimerExpiry ++ windowsDone s ++ delaysDone s ++
    dueIf (holdExceeded s) .holdLimitExceeded ++ dueIf (waitExceeded s) .recoveryWaitExceeded ++
    dueIf (dwellDone s) .dwellExpiry ++ dueIf (ranOut s.line.timer) .statusTimerExpiry

/-- The expiry the idle step carries out; none while a reset is applied. -/
def due (s : State) : Option Instr := if s.held.isSome then none else (allDue s).head?

/-! ## A millisecond -/

/-- A running timer falls by 1 ms. -/
def countDown (t : Option Nat) : Option Nat := t.map (· - 1)

/-- The sequencer's timers after a millisecond (R1). -/
def tickSeq (q : Sequencer) : Sequencer :=
  { q with wake := countDown q.wake, brake := countDown q.brake, hold := countDown q.hold, rest := countDown q.rest }

/-- A delay after a millisecond (R76). -/
def tickTrigger : Trigger → Trigger
  | .delaying n => .delaying (n - 1)
  | .waiting => .waiting
  | .pending => .pending

/-- An armed entry after a millisecond (R64, R76). -/
def tickArmed (a : ArmedCue) : ArmedCue :=
  { a with window := countDown a.window, trigger := a.trigger.map tickTrigger }

/-- The hold time after a millisecond in an axis state (R71). -/
def tickContext (a : AxisState) (x : CueContext) : CueContext :=
  if x.phase = .running ∧ holdCounts a = true then { x with holdTime := x.holdTime + 1 } else x

/-- Cue control after a millisecond (R64 to R66, R71, R76). -/
def tickCtl (a : AxisState) (c : CueControl) : CueControl :=
  { c with lapse := countDown c.lapse, armed := c.armed.map tickArmed, ctx := c.ctx.map (tickContext a) }

/-- The recovery record after a millisecond (R146, R147). -/
def tickRecovery (counts : Bool) (r : Recovery) : Recovery :=
  { r with dwell := countDown r.dwell, wait := if counts then r.wait + 1 else r.wait }

/-- One millisecond passes on every ms timer (log 1). -/
def tickMs (s : State) : State :=
  let counts := waitCounts s
  let a := s.seq.axis
  (((s.onSeq tickSeq).onCtl (tickCtl a)).onSup fun p => { p with recovery := p.recovery.map (tickRecovery counts) }).onLine
    fun l => { l with timer := countDown l.timer }

/-- A millisecond on a part that runs; a reset that is applied holds every timer stopped, and one applied after the
millisecond is a later one (R171, log 7). -/
def passMs (s : State) : State := if s.held.isSome then { s with resetNow := false } else tickMs s

end Sys2Proof.Machine
end

