-- ==== Sys2Proof/Machine/Step.lean ====
section
/-! DEFINITION. One step: the command at the front of the queue, or with none waiting an expiry or a millisecond. -/

namespace Sys2Proof.Machine

/-- With no command waiting: the expiry that is due, else one millisecond (log 1). -/
def idle (s : State) : Host.Outcome State Fault Refusal :=
  match due s with
  | some i => exec i s
  | none => .next (passMs s)

/-- One step of the part. -/
def step (s : State) : Host.Outcome State Fault Refusal :=
  match s.pending with
  | [] => idle s
  | c :: rest => exec c { s with pending := rest }

/-- The state with the command that a word spells at the front of its queue; unchanged where it spells none (log 45). -/
def State.withFetchWord (s : State) (nbits w : Nat) : State :=
  match decodeTableWord nbits w with
  | none => s
  | some i => { s with pending := i :: s.pending }

end Sys2Proof.Machine
end

