-- ==== Sys2Proof/Safety.lean ====
section
/-! DEFINITION. What a safe part is: the laws the spec numbers "of the device", and the invariants that carry them
through a step. Each is a decidable property of one state. -/

namespace Sys2Proof.Machine

/-! ## The words of the statements -/

/-- An outcome is a next state with a property. -/
def Answers (o : Host.Outcome State Fault Refusal) (p : State → Prop) : Prop := ∃ t, o = .next t ∧ p t

/-- The parts of the state that no operation of the sequencer, of cue control or of supervision changes. -/
def base (s : State) : List Instr × Option ResetCause × Nat × Nat × Inputs × List CueRecord × Stores × Bool :=
  (s.pending, s.held, s.station, s.freeCount, s.inp, s.table, s.store, s.resetNow)

/-- The measured values (R136). -/
def senses (m : Measure) : BitVec 32 × Option (BitVec 32) × Position × Int × Int × Int × Bool × Bool × Nat × List Int ×
    Option Int :=
  (m.count, m.latched, m.measured, m.change, m.displacement, m.offset, m.referenced, m.converting, m.invalidRun,
    m.window, m.filtered)

/-- The enable state (R65). -/
def enabling (c : CueControl) : Bool × Option Nat × Nat × Byte := (c.enableFresh, c.lapse, c.override, c.enableCount)

/-- The guard's active set and envelope (R110). -/
def bounds (g : ClearanceGuard) : List Bool × Int × Int := (g.active, g.lower, g.upper)

/-- The answers, the ANNOUNCE, the sequence count and the backoff of the port. -/
def outbox (l : LinePort) : List (Queued ReplyBody) × Option (Queued Announce) × Byte × Option Nat :=
  (l.replies, l.announce, l.seqCount, l.backoff)

/-- What those operations leave alone besides the base. -/
def still (s : State) := (senses s.meas, enabling s.ctl, bounds s.guard, outbox s.line)

/-- Where the generator stands: set-point, velocity, stop point, progress and the published values (R23, R44). -/
def path (g : Generator) : Position × Nat × Position × Nat × Published := (g.s, g.v, g.stopPoint, g.progress, g.pub)

/-- No command is half done: no STATUS is owed, and the rest timer runs exactly when R5 says. -/
abbrev Settled (s : State) : Prop := s.line.statusDue = 0 ∧ restFollow s = s

/-! ## The laws -/

/-- The sum of the velocities visited while braking from `v` by `x` a period: v - x, v - 2x, and so on, `n` of them. -/
def brakingSum (v x : Nat) : Nat → Nat
  | 0 => 0
  | n + 1 => brakingSum v x n + (v - (n + 1) * x)

/-- Law 1 (R32): the set-point of a running move does not lie beyond its target as seen from its start. -/
def MoveWithin (m : MoveInputs) (s : Position) : Prop :=
  match m.dir with
  | .up => s.toNat ≤ m.target
  | .down => m.target ≤ s.toNat

/-- Law 4 (R81): at most 16 entries in ascending order, no two of one station, none of the own station. -/
abbrev PeersLawful (s : State) : Prop :=
  s.peers.length ≤ peerCapacity ∧ (s.peers.map (·.station)).Pairwise (· < ·) ∧ ∀ p ∈ s.peers, p.station ≠ s.station

/-- The numbers of the armed list, oldest first. -/
def armedNumbers (s : State) : List Nat := s.ctl.armed.map (·.cue)

/-- The number of the cue context, if there is one. -/
def contextNumber (s : State) : Option Nat := s.ctl.ctx.map (·.record.cue.number)

/-- Law 5 (R61): at most 4 armed cues, no two of one number, none of the running cue. -/
abbrev ArmedLawful (s : State) : Prop :=
  (armedNumbers s).length ≤ 4 ∧ (armedNumbers s).Nodup ∧ ∀ n ∈ armedNumbers s, contextNumber s ≠ some n

/-- What a cue context needs of the sequencer, by state: Law 6 and the table of 1.1, with what keeps them true from
one command to the next (a wake or release for nothing or for homing, and a brake set or a stop toward PARKED, has no
cue that goes on). -/
def contextPlaced (q : Sequencer) (phase : CuePhase) : Bool :=
  match q.axis with
  | .unaddressed | .rest | .parked | .homing | .tripped => false
  | .waking => decide (q.startReq = .cue) || decide (q.startReq = .recover)
  | .releasing => decide (q.startReq ≠ .home)
  | .setting => decide (q.dest ≠ .parked)
  | .stopping => decide (q.dest ≠ .parked) || decide (phase = .ending)
  | .moving | .held | .suspended | .recovering => true

/-- Law 6 made to last: the cue context, if any, stands where `contextPlaced` allows it. -/
abbrev ContextLawful (s : State) : Prop := ∀ x ∈ s.ctl.ctx, contextPlaced s.seq x.phase = true

/-- Law 11 (R79): in TRIPPED the armed list is empty. -/
abbrev TripLawful (s : State) : Prop := s.seq.axis = .tripped → s.ctl.armed = []

/-- Law 12 (R132): the filtered load is absent with no load in the window, else the truncated mean of its 1 to 4
loads; the invalid run is 0 to 4. -/
abbrev LoadLawful (s : State) : Prop :=
  s.meas.window.length ≤ 4 ∧ s.meas.filtered = meanOf s.meas.window ∧ s.meas.invalidRun ≤ 4

/-- Law 9 (R69, R124) made to last: a cue context needs a REFERENCED position; ENCODER while present is latched and the
axis TRIPPED. -/
abbrev ReferenceLawful (s : State) : Prop :=
  (s.meas.referenced = false → s.ctl.ctx = none) ∧
    (Condition.encoder ∈ s.sup.present → Condition.encoder ∈ s.sup.latched ∧ s.seq.axis = .tripped)

/-- Law 4 made to last: with what the records of the table need for it, no follow part naming the own station (R48). -/
abbrev PeersKept (s : State) : Prop :=
  PeersLawful s ∧ ∀ r ∈ s.table, ∀ f ∈ r.cue.follow, f.station ≠ s.station

/-! ## What a trip leaves -/

/-- TRIPPED has been entered for a condition: it is latched beside those latched before, the brake is commanded set,
the timers are stopped, no cue, no armed cue, no homing and no capture remains (R17, R18, R21, R79, R126). -/
abbrev TripEntered (c : Condition) (s t : State) : Prop :=
  t.seq.axis = .tripped ∧ t.seq.startReq = .none ∧
    (t.seq.wake, t.seq.brake, t.seq.hold, t.seq.rest) = (none, none, none, none) ∧ brakeRel t = false ∧
    t.sup.latched = insertCondition c s.sup.latched ∧ t.ctl.ctx = none ∧ t.ctl.armed = [] ∧ t.ctl.homing = none ∧
    t.meas.capture = .disarmed

/-- The drive is off and shows zero speed (R2, R135, R142). -/
abbrev DriveOff (t : State) : Prop :=
  driveEn t = false ∧ t.meas.pendingDuty = 2048 ∧ t.meas.activeDuty = 2048 ∧ t.sup.readySeen = false

/-- What a trip leaves alone: the base but for an input that has just changed, the measured values, enable, the guard,
the answers, where the generator stands, and the queued marks. -/
abbrev TripFrame (s t : State) : Prop :=
  base t = base s ∧ still t = still s ∧ path t.gen = path s.gen ∧ t.guard = s.guard ∧ t.line.marks = s.line.marks

/-- A cue ended by a trip, with nothing armed and no homing after it, is the last event, FAULT naming the condition
(R73, R79, R143). -/
abbrev EndedByTrip (c : Condition) (s t : State) : Prop :=
  ∀ x ∈ s.ctl.ctx, x.endReason = none → s.ctl.armed = [] → s.ctl.homing = none →
    t.ctl.lastEvent = some (.ended x.record.cue.number (.fault c) (remainingMm s x))

/-! ## The words of a profile period -/

/-- The position that a period measures (R123). -/
def periodMeasured (s : State) : Position :=
  clampPosition (s.meas.offset + s.meas.count.toInt * s.store.live.nmPerCount)

/-- The count change that a period finds (R123). -/
def periodChange (s : State) : Int := countChange s.meas.latched s.meas.count

/-- The displacement that a period finds, nm (R123). -/
def periodDisplacement (s : State) : Int := periodChange s * s.store.live.nmPerCount

/-- The active set that a period computes (R110). -/
def periodActive (s : State) : List Bool := activeSetOf s.store.live s.peers

/-- The envelope that a period computes (R110). -/
def periodEnvelope (s : State) : Int × Int :=
  envelopeOf s.store.live s.peers s.gen.s.toNat (contextTarget s) (contextStart s)

/-- The part runs and no capture waits to be referenced (R127). -/
abbrev Unreferencing (s : State) : Prop :=
  s.held = none ∧ (s.meas.capture = .disarmed ∨ s.meas.capture = .armed)

/-- A period raises neither OVERSPEED, under a limit, nor ENCODER (R138, R141). -/
abbrev CalmUnder (limit : Nat) (s : State) : Prop :=
  100 * (periodDisplacement s).natAbs ≤ 115 * limit ∧ (periodChange s).natAbs ≤ s.store.live.encJump

/-- A set-point stays within the following limit of a measured position (R42, R139). -/
abbrev FollowsWithin (s : State) (point measured : Position) : Prop :=
  (positionError point measured).natAbs ≤ s.store.live.followLimit * 1000

/-- What every period of a watched axis leaves: the latched count and the values formed from it, a conversion begun, the
guard's results (R22, R110, R123, R130). -/
abbrev PeriodTaken (s t : State) : Prop :=
  t.meas.latched = some s.meas.count ∧ t.meas.measured = periodMeasured s ∧ t.meas.change = periodChange s ∧
    t.meas.displacement = periodDisplacement s ∧ t.meas.converting = true ∧ t.meas.count = s.meas.count ∧
    t.meas.offset = s.meas.offset ∧ t.meas.referenced = s.meas.referenced ∧ t.guard.active = periodActive s ∧
    (t.guard.lower, t.guard.upper) = periodEnvelope s

/-- v_target of a period, under a stop demand or not (R26, R27, R99, R101). -/
def periodTarget (s : State) (x : CueContext) (m : MoveInputs) (stopping : Bool) : Nat :=
  let vlim := m.vmax * s.ctl.override / 100
  let stale := staleReportOf x.record.cue.number s.gen.progress s.peers x.views
  min vlim (min (cueVg s x vlim) (if s.ctl.enableFresh = false ∨ stale = true ∨ stopping = true then 0 else vlim))

/-- R_e of a period (R29). -/
def periodRoom (s : State) (m : MoveInputs) : Nat :=
  envelopeRoom m.dir (periodEnvelope s).1 (periodEnvelope s).2 s.gen.s

/-- The step of a RUN period under a velocity target (R30 to R33). -/
def periodStep (s : State) (m : MoveInputs) (target : Nat) : PeriodStep :=
  runPeriod s.gen.v target m.accel m.decel (remainingTo m s.gen.s) (periodRoom s m)

/-- The context with the coupler's flags of a period (R101). -/
def pacedContext (s : State) (x : CueContext) : CueContext :=
  { x with
    pacedStale := pacedStaleOf s.peers x.views
    staleReport := staleReportOf x.record.cue.number s.gen.progress s.peers x.views }

/-- The marks that a change of the set-point to a point fires (R41). -/
def firedAt (s : State) (x : CueContext) (m : MoveInputs) (point : Position) : List Nat :=
  firedBy m.dir s.gen.s point x.record.cue.marks s.gen.fired

/-- Where a period of a cue leaves the generator and the marks: set-point, progress, stop point at a deceleration,
published values, marks handed to the port (R39 to R41, R44, R162). -/
abbrev MovedTo (s t : State) (x : CueContext) (m : MoveInputs) (point : Position) (v decel : Nat) : Prop :=
  let stop := forward m.dir point (min (stoppingDistance v decel) (remainingTo m point))
  t.gen.s = point ∧ t.gen.v = v ∧ t.gen.progress = max s.gen.progress (progressValue m point) ∧
    t.gen.stopPoint = stop ∧ t.gen.pub = ⟨point.toNat / 1000, signedVelocity m.dir v, stop.toNat / 1000⟩ ∧
    t.line.marks = ((firedAt s x m point).foldl (queueMark x.record.cue.number) s).line.marks

/-- The position loop's duty (R42, R43). -/
def loopDuty (s : State) (velocity : Int) (point measured : Position) : Nat :=
  dutyOf s.store.live (reference s.store.live velocity (positionError point measured))

/-! ## The words of a FAST demand -/

/-- The end of a cue that a latched condition gives: the first condition that did (R74, R143). -/
def faultedContext (c : Condition) (x : CueContext) : CueContext :=
  { x with
    phase := .ending
    endReason :=
      match x.endReason with
      | some (.fault first) => some (.fault first)
      | _ => some (.fault c) }

/-- The column "FAST with LATCH" of R19: axis state, stop kind and destination. -/
def latchRow (q : Sequencer) : AxisState × StopKind × SetDest :=
  match q.axis with
  | .moving | .held | .homing | .stopping => (.stopping, .fast, .tripped)
  | .releasing | .setting => (.setting, q.stopKind, .tripped)
  | .suspended | .recovering | .waking | .parked | .rest => (.tripped, q.stopKind, q.dest)
  | .tripped | .unaddressed => (q.axis, q.stopKind, q.dest)

/-- The column "FAST with RECOVER, cue context present" of R19, with the start request. -/
def recoverRow (q : Sequencer) : AxisState × StopKind × SetDest × StartRequest :=
  match q.axis with
  | .moving | .held => (.stopping, .fast, .recovering, .none)
  | .stopping => (.stopping, .fast, q.dest, q.startReq)
  | .releasing => (.setting, q.stopKind, .recovering, .none)
  | .setting => (.setting, q.stopKind, if q.dest = .suspended then .recovering else q.dest, q.startReq)
  | .suspended => (.recovering, q.stopKind, q.dest, .none)
  | .waking => (.waking, q.stopKind, q.dest, .recover)
  | .recovering | .parked | .rest | .homing | .tripped | .unaddressed => (q.axis, q.stopKind, q.dest, q.startReq)

/-- The column "FAST with RECOVER, no cue context" of R19. -/
def idleRow (q : Sequencer) : AxisState × StopKind × SetDest :=
  match q.axis with
  | .homing => (.stopping, .fast, .parked)
  | .stopping => (.stopping, .fast, q.dest)
  | .releasing => (.setting, q.stopKind, .parked)
  | .unaddressed | .rest | .waking | .parked | .moving | .held | .suspended | .setting | .recovering | .tripped =>
    (q.axis, q.stopKind, q.dest)

/-! ## The words of the port -/

/-- A frame with the count that its first attempt takes (R154). -/
def counted {α : Type} (l : LinePort) (f : Queued α) : Queued α := { f with seq := some (f.seq.getD l.seqCount) }

/-- The port with an attempt at a frame of a store begun: the sequence count rises where this is the frame's first
attempt, and no backoff runs (R154, R155). -/
def attempting {α : Type} (l : LinePort) (store : TxStore) (body : TxBody) (f : Queued α) : LinePort :=
  { l with
    seqCount := if f.seq = none then l.seqCount + 1 else l.seqCount
    backoff := none
    attempt := some ⟨store, f.seq.getD l.seqCount, f.attempts, body, false⟩ }

/-! ## Outputs and stores -/

/-- While a reset is applied every block stands at its reset values, and no write of the stores goes on (R3, R169 to
R171). -/
abbrev HeldLawful (s : State) : Prop :=
  s.held.isSome = true →
    s.seq = Sequencer.reset ∧ s.gen = Generator.reset ∧ s.meas = Measure.reset ∧ s.ctl = CueControl.reset ∧
      s.table = [] ∧ s.peers = [] ∧ s.guard = ClearanceGuard.reset ∧ s.sup = Supervision.reset ∧
      s.line = LinePort.reset ∧ s.store.saving = none ∧ s.store.writing = false ∧ s.store.waiting = []

/-- While DRIVE_EN is deasserted both duty registers stand at 2048 (R2, R135). -/
abbrev DutyLawful (s : State) : Prop :=
  driveEn s = false → s.meas.pendingDuty = 2048 ∧ s.meas.activeDuty = 2048

/-- The duty registers range over 1 to 4095 (R134). -/
abbrev DutyInRange (s : State) : Prop :=
  (1 ≤ s.meas.pendingDuty ∧ s.meas.pendingDuty ≤ 4095) ∧ 1 ≤ s.meas.activeDuty ∧ s.meas.activeDuty ≤ 4095

/-- The cue table: at most 200 records in ascending order of number, no two of one number (R50). -/
abbrev TableLawful (s : State) : Prop :=
  s.table.length ≤ 200 ∧ (s.table.map (·.cue.number)).Pairwise (· < ·)

/-- The MARK and REPLY queues hold at most four entries each (R160), and a request waits only while a SETUP is being
written and has its place in the REPLY queue (R159, logs 33, 52). -/
abbrev QueuesLawful (s : State) : Prop :=
  s.line.marks.length ≤ 4 ∧ s.line.replies.length + s.store.waiting.length ≤ 4 ∧
    (s.store.writing = false → s.store.waiting = [])

/-- The latched and present sets hold conditions in ascending order of code, none twice (R137, R151). -/
abbrev ConditionsLawful (s : State) : Prop :=
  (s.sup.latched.map Condition.code).Pairwise (· < ·) ∧ (s.sup.present.map Condition.code).Pairwise (· < ·)

end Sys2Proof.Machine
end

