-- ==== Sys2Proof/Certificates/Slice0/Obligations.lean ====
section
/-! DEFINITION. The statements for the provers. A command that is answered leaves the queue alone and what no rule
names; each statement says so for the commands it is about. -/

open Sys2Proof Sys2Proof.Machine

/-! ## The step -/

/-- A step takes the command at the front of the queue and runs it on the state with the queue's rest. -/
def Obligations.StepRunsFrontCommand : Prop :=
  ∀ (s : State) (c : Instr) (rest : List Instr), s.pending = c :: rest → step s = exec c { s with pending := rest }

/-- Every command, in every state, has a next state, and leaves the queue as it is. -/
def Obligations.CommandsKeepQueue : Prop :=
  ∀ (c : Instr) (s : State), Answers (exec c s) fun t => t.pending = s.pending

/-- Log 1, the model's choice: with no command waiting, the expiry that is due is carried out; with none due, a part
that runs lets one millisecond pass on every timer that counts in ms. A running timer falls by one, a stopped one stays
stopped; the hold time and the recovery wait rise by one where they count; nothing else changes. While a reset is applied
nothing counts, and the millisecond makes a reset after it a later one (log 7, the model's reading). -/
def Obligations.IdlePassesMillisecond : Prop :=
  ∀ s : State, s.pending = [] →
    (s.held.isSome = true → step s = .next { s with resetNow := false }) ∧
    (s.held = none → ∀ i, due s = some i → step s = exec i s) ∧
    (s.held = none → due s = none → Answers (step s) fun t =>
      t.seq = { s.seq with
        wake := s.seq.wake.map (· - 1)
        brake := s.seq.brake.map (· - 1)
        hold := s.seq.hold.map (· - 1)
        rest := s.seq.rest.map (· - 1) } ∧
      t.ctl = { s.ctl with
        lapse := s.ctl.lapse.map (· - 1)
        armed := s.ctl.armed.map fun a =>
          { a with
            window := a.window.map (· - 1)
            trigger := a.trigger.map fun g =>
              match g with
              | .delaying n => .delaying (n - 1)
              | .waiting => .waiting
              | .pending => .pending }
        ctx := s.ctl.ctx.map fun x =>
          { x with holdTime :=
            if x.phase = .running ∧ holdCounts s.seq.axis = true then x.holdTime + 1 else x.holdTime } } ∧
      t.sup = { s.sup with
        recovery := s.sup.recovery.map fun r =>
          { r with dwell := r.dwell.map (· - 1), wait := if waitCounts s = true then r.wait + 1 else r.wait } } ∧
      t.line = { s.line with timer := s.line.timer.map (· - 1) } ∧
      base t = base s ∧ t.gen = s.gen ∧ t.meas = s.meas ∧ t.peers = s.peers ∧ t.guard = s.guard)

/-! ## Resets -/

/-- A reset of any of the three kinds, applied over whatever stands, puts every block at its reset values. The cause of
the reset is its own; where another is held and the two are applied at the same time, the first of the two in the order
POWER_ON, SUPPLY_DIP, RESET_PIN (R171; that resets with no millisecond between them are applied at the same time is log 7,
the model's reading). No write of the stores goes on. The inputs (log 5, the model's choice), the stored cues and the
queue stay; the setup block stays, or during a SETUP write may be either (log 8, the model's choice). What `HeldLawful`
and the clauses below say of the registers the spec gives no value between the reset and the state-entry step (the axis
REST with its destination PARKED, no record, no active rule, the set-point 0, the envelope of the default soft limits) is
log 6, the model's choice. -/
def Obligations.ResetSetsBlocks : Prop :=
  ∀ (s : State) (c : Instr) (cause : ResetCause),
    (c, cause) ∈ [(Instr.powerOn, ResetCause.powerOn), (.supplyDip, .supplyDip), (.resetPin, .resetPin)] →
    Answers (exec c s) fun t =>
      HeldLawful t ∧ t.resetNow = true ∧ (s.held = none ∨ s.resetNow = false → t.held = some cause) ∧
      (∀ other, s.held = some other → s.resetNow = true →
        t.held = [ResetCause.powerOn, .supplyDip, .resetPin].find? fun k => k = cause ∨ k = other) ∧
      driveEn t = false ∧ brakeRel t = false ∧ t.seq.startReq = .none ∧
      t.seq.wake = none ∧ t.seq.brake = none ∧ t.seq.hold = none ∧ t.seq.rest = none ∧
      t.meas.count = 0 ∧ t.meas.offset = 100000000000 ∧ t.meas.referenced = false ∧ t.meas.capture = .disarmed ∧
      t.meas.invalidRun = 0 ∧ t.meas.window = [] ∧ t.meas.filtered = none ∧ t.meas.converting = false ∧
      t.meas.pendingDuty = 2048 ∧ t.meas.activeDuty = 2048 ∧
      t.ctl.armed = [] ∧ t.ctl.enableFresh = false ∧ t.ctl.lapse = none ∧ t.ctl.override = 100 ∧
      t.ctl.enableCount = 0 ∧ t.ctl.ctx = none ∧ t.ctl.lastEvent = none ∧
      t.gen.v = 0 ∧ t.gen.progress = 0 ∧ t.gen.fired = [] ∧ t.gen.overrun = false ∧ t.gen.homing = none ∧
      t.table = [] ∧ t.peers = [] ∧
      t.sup.present = [] ∧ t.sup.latched = [] ∧ t.sup.readySeen = false ∧ t.sup.recovery = none ∧
      t.guard.active = [] ∧ t.guard.notice = false ∧
      t.line.status = none ∧ t.line.marks = [] ∧ t.line.replies = [] ∧ t.line.announce = none ∧
      t.line.seqCount = 0 ∧ t.line.timer = none ∧ t.line.markLost = false ∧ t.line.attempt = none ∧
      t.line.backoff = none ∧ t.store.saving = none ∧ t.store.writing = false ∧ t.store.waiting = [] ∧
      t.inp = s.inp ∧ t.pending = s.pending ∧ t.store.nvCues = s.store.nvCues ∧
      (s.store.writing = false → t.store.nvSetup = s.store.nvSetup) ∧
      (t.store.nvSetup = s.store.nvSetup ∨ t.store.nvSetup = writtenSetup s.store.image s.store.revision)

/-- The state the model starts from (logs 3 to 6 name what the spec leaves to it) satisfies the invariants. -/
def Obligations.ResetIsLawful : Prop :=
  HeldLawful State.reset ∧ PeersKept State.reset ∧ ArmedLawful State.reset ∧ ContextLawful State.reset ∧
    ReferenceLawful State.reset ∧ TripLawful State.reset ∧ LoadLawful State.reset ∧ DutyLawful State.reset ∧
    DutyInRange State.reset ∧ TableLawful State.reset ∧ QueuesLawful State.reset ∧ ConditionsLawful State.reset ∧
    Settled State.reset

/-- The power-on sequence on a part held in its reset state, with no limit switch open and no drive fault: the station
is the number on the straps; the setup block is checked and fixes the stored image and the live setup (R168); the cue
store is checked, and the table holds its records that pass the revalidation, with their signatures (R51, R52, R170);
the clearance entries are UNHEARD (R85) and the guard holds every rule active (R110); the axis state and the latched
conditions are those of R3; the ANNOUNCE and, before it, the STATUS are in their slots. A count above 200 is BAD by log
53, the model's choice. -/
def Obligations.PowerOnSequenceEntersState : Prop :=
  ∀ (s : State) (cause : ResetCause) (straps : BitVec 6), s.held = some cause → HeldLawful s →
    s.inp.ultUpOpen = false → s.inp.ultDownOpen = false → s.inp.driveFault = false →
    Answers (exec (.powerOnSequence straps) s) fun t =>
      let own := straps.toNat
      let nv := s.store.nvSetup
      let cues := s.store.nvCues
      let good := nv.good && contentGood own nv.image
      t.held = none ∧ t.station = own ∧ t.seq.startReq = .none ∧ driveEn t = false ∧
      (own = 0 ∨ 48 ≤ own → t.seq.axis = .unaddressed ∧ t.sup.latched = [] ∧ t.line.announce = none ∧ t.peers = []) ∧
      (1 ≤ own → own ≤ 47 →
        (good = false → t.seq.axis = .tripped ∧ t.peers = [] ∧
          t.sup.latched = (if s.inp.loopOpen then [.estop, .setupBad] else [.setupBad])) ∧
        (good = true → s.inp.loopOpen = true → t.seq.axis = .tripped ∧ t.sup.latched = [.estop]) ∧
        (good = true → s.inp.loopOpen = false → t.seq.axis = .rest ∧ t.sup.latched = []) ∧
        (good = true →
          (∀ p ∈ t.peers, p = { station := p.station, clearance := true, holdings := [], fresh := .unheard, age := 0
                                contents := none }) ∧
          (t.peers.map (·.station)).Pairwise (· < ·) ∧
          (∀ n, n ∈ t.peers.map (·.station) ↔ ∃ r ∈ rulesInUse t.store.live, r.peer = n)) ∧
        (∃ q, t.line.announce = some q ∧ q.body.cause = .reset cause ∧ q.body.revision = t.store.revision ∧
          q.body.cueCount = t.table.length ∧ q.body.store = t.store.cueState) ∧
        (∃ q, t.line.status = some q ∧ q.body.axis = t.seq.axis)) ∧
      (t.store.image, t.store.revision) = (if nv.good then (nv.image, nv.revision) else (Setup.default, 0)) ∧
      t.store.live = (if good then nv.image else Setup.default) ∧
      (cues.good = false → t.store.cueState = .bad ∧ t.table = []) ∧
      (cues.good = true → cues.count = 0 → t.store.cueState = .empty ∧ t.table = []) ∧
      (cues.good = true → 200 < cues.count → t.store.cueState = .bad ∧ t.table = []) ∧
      (cues.good = true → 1 ≤ cues.count → cues.count ≤ 200 → t.store.cueState = .good ∧
        ((cues.stored.map (·.number)).Pairwise (· < ·) →
          t.table = (cues.stored.filter (revalidated t.store.live own)).map fun c => ⟨c, signatureOf c⟩)) ∧
      (∀ c, revalidated t.store.live own c = true ↔
        (t.store.live.softLow ≤ c.target ∧ c.target ≤ t.store.live.softHigh) ∧
        (∀ m ∈ c.marks, t.store.live.softLow ≤ m ∧ m ≤ t.store.live.softHigh) ∧
        (∀ g ∈ c.group, own ∈ g.members) ∧ ∀ f ∈ c.follow, f.station ≠ own) ∧
      t.guard = ⟨(rulesInUse t.store.live).map fun _ => true, mmToNm t.store.live.softLow,
        mmToNm t.store.live.softHigh, false⟩ ∧
      t.meas = s.meas ∧ t.inp = s.inp ∧ t.store.nvSetup = nv ∧ t.store.nvCues = cues ∧ t.pending = s.pending ∧
      t.ctl = s.ctl

/-! ## Invariants that every step keeps -/

/-- While a reset is applied, every block keeps its reset values through every step. -/
def Obligations.StepKeepsResetBlocks : Prop :=
  ∀ s t : State, HeldLawful s → step s = .next t → HeldLawful t

/-- Law 4: the peer table stays within 16 entries, ascending, each station once and never the own one. -/
def Obligations.StepKeepsPeerTable : Prop :=
  ∀ s t : State, HeldLawful s → PeersKept s → step s = .next t → PeersKept t

/-- Laws 5 and 11: the armed list holds at most 4 cues, no two of one number and never the running cue, and it is empty
in TRIPPED. -/
def Obligations.StepKeepsArmedList : Prop :=
  ∀ s t : State, HeldLawful s → ArmedLawful s → TripLawful s → step s = .next t → ArmedLawful t ∧ TripLawful t

/-- Law 6, with what keeps it true: no cue context exists in TRIPPED, REST, UNADDRESSED, PARKED or HOMING, nor in a
wake, a release, a brake set or a stop that has none to go on with. -/
def Obligations.StepKeepsContextPlaced : Prop :=
  ∀ s t : State, HeldLawful s → ContextLawful s → step s = .next t → ContextLawful t

/-- Law 9: no cue context exists while the position is UNREFERENCED. -/
def Obligations.StepKeepsContextReferenced : Prop :=
  ∀ s t : State, HeldLawful s → ContextLawful s → ReferenceLawful s → step s = .next t → ReferenceLawful t

/-- Law 12: the filtered load is absent or the truncated mean of the 1 to 4 loads of the window. -/
def Obligations.StepKeepsFilteredLoad : Prop :=
  ∀ s t : State, LoadLawful s → step s = .next t → LoadLawful t

/-- With the drive off, SPD_REF shows zero speed: both duty registers stand at 2048 (R2, R135). -/
def Obligations.StepKeepsZeroSpeedWithDriveOff : Prop :=
  ∀ s t : State, HeldLawful s → DutyLawful s → step s = .next t → DutyLawful t

/-- The stores keep their capacities and orders: 200 records ascending, four MARKs, four answers with
the places of the waiting requests among them (log 33, the model's reading), which wait only during a SETUP write; the
condition sets are ascending; the duty registers range over 1 to 4095. -/
def Obligations.StepKeepsStores : Prop :=
  ∀ s t : State, TableLawful s → QueuesLawful s → ConditionsLawful s → DutyInRange s → step s = .next t →
    TableLawful t ∧ QueuesLawful t ∧ ConditionsLawful t ∧ DutyInRange t

/-- Between commands no STATUS is owed (statusDue, the model's own count, log 12, DEDUCED) and the rest timer runs exactly
when R5 says. -/
def Obligations.StepKeepsSettled : Prop :=
  ∀ s t : State, Settled s → step s = .next t → Settled t

/-- Law 3: through a command that leaves a cue running, the progress does not fall, and the cue is the same. -/
def Obligations.ProgressNeverFalls : Prop :=
  ∀ (c : Instr) (s t : State) (x y : CueContext), exec c s = .next t → s.ctl.ctx = some x → t.ctl.ctx = some y →
    s.gen.progress ≤ t.gen.progress ∧ y.record = x.record

/-- Every change of axis state on a part with a station is answered by a STATUS that shows the new state, and the status
timer restarts. -/
def Obligations.AxisChangeBuildsStatus : Prop :=
  ∀ (c : Instr) (s t : State), Settled s → exec c s = .next t → addressed t = true → t.seq.axis ≠ s.seq.axis →
    (∃ q, t.line.status = some q ∧ q.body.axis = t.seq.axis) ∧ t.line.timer = some t.store.live.statusInterval

/-! ## The arithmetic of the generator -/

/-- R28: S(v) is the sum of the velocities visited while braking by X, floor(v / X) of them; it is the closed form; it
is 0 below X; at and above X it is (v - X) + S(v - X); n is at most 40,000. -/
def Obligations.StoppingDistanceIsBrakingSum : Prop :=
  ∀ v x : Nat, 0 < x →
    stoppingDistance v x = brakingSum v x (v / x) ∧
    (2 * stoppingDistance v x : Int) = 2 * ((v / x : Nat) : Int) * v - x * (v / x : Nat) * ((v / x : Nat) + 1) ∧
    (v < x → stoppingDistance v x = 0) ∧
    (x ≤ v → stoppingDistance v x = (v - x) + stoppingDistance (v - x) x) ∧
    (v ≤ 2000000 → 50 ≤ x → v / x ≤ 40000)

/-- R30, R31: the chosen velocity is the first feasible candidate of those offered in the order c1 to c4; with none
feasible it is c4 and the period is an OVERRUN period. -/
def Obligations.FirstFeasibleCandidateChosen : Prop :=
  ∀ v vt a d room : Nat,
    let c1 := min (v + a) vt
    let c3 := max (v - d) vt
    let c4 := v - d
    let ok (c : Nat) : Prop := c + stoppingDistance c d ≤ room
    (v < vt → ok c1 → chooseVelocity v vt a d room = (c1, false)) ∧
    (v ≤ vt → (v < vt → ¬ok c1) → ok v → chooseVelocity v vt a d room = (v, false)) ∧
    (vt < v → ok c3 → chooseVelocity v vt a d room = (c3, false)) ∧
    ((v < vt → ¬ok c1) → (v ≤ vt → ¬ok v) → (vt < v → ¬ok c3) → ok c4 →
      chooseVelocity v vt a d room = (c4, false)) ∧
    ((v < vt → ¬ok c1) → (v ≤ vt → ¬ok v) → (vt < v → ¬ok c3) → ¬ok c4 →
      chooseVelocity v vt a d room = (c4, true))

/-- R31: a move limited only by its target always finds c4 feasible after a feasible choice, so no OVERRUN arises. -/
def Obligations.TargetLimitedMoveNeverOverruns : Prop :=
  ∀ v vt a d rt re : Nat, 0 < d → rt ≤ re → stoppingDistance v d ≤ rt →
    (runPeriod v vt a d rt re).overrun = false ∧
      stoppingDistance (runPeriod v vt a d rt re).v d ≤ rt - (runPeriod v vt a d rt re).step

/-- Law 2: in a period of RUN mode the velocity ends no higher than the limit it was under, rises by at most A, and in a
period that does not arrive falls by at most D. -/
def Obligations.VelocityStaysWithinLimit : Prop :=
  ∀ v vt a d rt re vmax : Nat, v ≤ vmax → vt ≤ vmax →
    (runPeriod v vt a d rt re).v ≤ vmax ∧ (runPeriod v vt a d rt re).v ≤ v + a ∧
      ((runPeriod v vt a d rt re).arrived = false → v - d ≤ (runPeriod v vt a d rt re).v)

/-- R32, Law 1: with c the chosen velocity, the step of a period that does not creep is min(c, R_t) and v becomes c; a
period arrives exactly when its step is R_t, and then s becomes T and v 0. The step is never longer than R_t, and the
set-point of a move within its target advances by the step toward it and stays within it. -/
def Obligations.StepNeverPassesTarget : Prop :=
  ∀ (v vt a d re : Nat) (m : MoveInputs) (s : Position), MoveWithin m s → m.target < 2 ^ 48 →
    let rt := remainingTo m s
    let c := (chooseVelocity v vt a d (min rt re)).1
    let p := runPeriod v vt a d rt re
    (¬(c = 0 ∧ creepAllowed rt re vt a = true) → p.step = min c rt ∧ (p.arrived = false → p.v = c)) ∧
      (c = 0 → rt = 0 → p.arrived = true) ∧ p.step ≤ rt ∧ (p.arrived = true ↔ p.step = rt) ∧
      (p.arrived = true → p.v = 0 ∧ (steppedPoint m s p).toNat = m.target) ∧
      MoveWithin m (steppedPoint m s p) ∧ remainingTo m (steppedPoint m s p) + p.step = rt

/-- R33: a chosen velocity of 0 short of the target creeps to it, s becoming T and v staying 0, exactly when R_t is at
most A and at most R_e and the velocity target is positive; otherwise the period rests where it is. -/
def Obligations.CreepReachesTarget : Prop :=
  ∀ (v vt a d re : Nat) (m : MoveInputs) (s : Position), m.target < 2 ^ 48 →
    let rt := remainingTo m s
    let p := runPeriod v vt a d rt re
    (chooseVelocity v vt a d (min rt re)).1 = 0 → 0 < rt →
    (rt ≤ a → rt ≤ re → 0 < vt →
      p.step = rt ∧ p.v = 0 ∧ p.arrived = true ∧ (steppedPoint m s p).toNat = m.target) ∧
    (¬(rt ≤ a ∧ rt ≤ re ∧ 0 < vt) →
      p.step = 0 ∧ p.v = 0 ∧ p.arrived = false ∧ steppedPoint m s p = s)

/-- R99: with the least counted progress pmin, the pacing velocity is Vlim with no member counted or no lead, 0 at a
lead of the skew or more, and floor(Vlim × (skew - L) / skew) between; it is at most Vlim. -/
def Obligations.PacingFollowsLead : Prop :=
  ∀ (vlim skew own pmin : Nat), 0 < skew →
    pacingVelocity vlim skew own none = vlim ∧
    (own ≤ pmin → pacingVelocity vlim skew own (some pmin) = vlim) ∧
    (pmin + skew ≤ own → pacingVelocity vlim skew own (some pmin) = 0) ∧
    (∀ lead, own = pmin + lead → 0 < lead → lead < skew →
      pacingVelocity vlim skew own (some pmin) = vlim * (skew - lead) / skew) ∧
    pacingVelocity vlim skew own (some pmin) ≤ vlim ∧
    (∀ l : List (Option Nat), leastCounted l = some pmin ↔ some pmin ∈ l ∧ ∀ q, some q ∈ l → pmin ≤ q) ∧
    (∀ l : List (Option Nat), leastCounted l = none ↔ ∀ q, some q ∉ l)

/-- R42, R43: the duty of a reference lies in 1 to 4095, is 2048 at 0, 4095 at full scale and 1 at minus full scale, and
references of opposite sign lie the same distance from 2048. -/
def Obligations.DutySymmetricAboutZero : Prop :=
  ∀ (live : Setup) (ref : Int), 0 < live.fullScale → ref.natAbs ≤ live.fullScale →
    (dutyOf live ref : Int) = 2048 + Int.tdiv (ref * 2047) live.fullScale ∧
    1 ≤ dutyOf live ref ∧ dutyOf live ref ≤ 4095 ∧ dutyOf live 0 = 2048 ∧ dutyOf live live.fullScale = 4095 ∧
    dutyOf live (-(live.fullScale : Int)) = 1 ∧ dutyOf live ref + dutyOf live (-ref) = 4096

/-- R111 to R113: the occupancy of a FRESH peer runs from the least of its three positions less the margin to the
greatest plus the margin, and the rule is active exactly when it has a point in common with the peer band, a touch
included. A rule whose peer entry is UNHEARD, STALE or LOST takes the whole travel as occupied, and is active for every
peer band within the travel (R112). That a rule whose peer has no entry does the same is the model's own completion of a
read that R91 says never arises (log 61). -/
def Obligations.UnfreshPeerMakesRuleActive : Prop :=
  ∀ (ps : List Peer) (r : ClearanceRule),
    ((∀ p, findPeer ps r.peer = some p → p.fresh ≠ .fresh) →
      occupancy r (findPeer ps r.peer) = (0, 40000000) ∧
        (r.peerLow ≤ r.peerHigh → r.peerHigh ≤ 40000 → ruleActive ps r = true)) ∧
    (∀ p c, findPeer ps r.peer = some p → p.fresh = .fresh → p.contents = some c →
      let low : Int := (min c.setPoint (min c.measured c.stopPoint) : Nat) - 1000 * r.margin
      let high : Int := (max c.setPoint (max c.measured c.stopPoint) : Nat) + 1000 * r.margin
      occupancy r (findPeer ps r.peer) = (low, high) ∧
        (r.peerLow ≤ r.peerHigh → (ruleActive ps r = true ↔
          ∃ y : Int, (low ≤ y ∧ y ≤ high) ∧ 1000 * r.peerLow ≤ y ∧ y ≤ 1000 * r.peerHigh)))

/-- R114, R115: the upper bound of the envelope is the greatest value that the upper soft limit and every active rule
allow, the lower bound the least. A rule whose widened own band lies above the set-point sets its low end as the upper
bound, one below it its high end as the lower bound; inside the band both bounds are the set-point, but for the side on
which the target lies beyond the band, where the bound is the target. The ends count as inside (R115); a cue that
started outside and stands on the end with the band between it and its target is held there as from outside where
`Config.edgeHolds`, the free choice of log 50 between R115 and R117, says so. With the set-point within the soft limits the
envelope contains it. -/
def Obligations.EnvelopeContainsSetPoint : Prop :=
  ∀ (live : Setup) (ps : List Peer) (s : Int) (target start : Option Int),
    let env := envelopeOf live ps s target start
    let low (r : ClearanceRule) : Int := ((r.ownLow : Int) - r.margin) * 1000000
    let high (r : ClearanceRule) : Int := ((r.ownHigh : Int) + r.margin) * 1000000
    let below (r : ClearanceRule) : Bool :=
      decide (s < low r) || (decide (s = low r) && start.any (fun a => decide (a < low r)) &&
        target.any (fun t => decide (high r < t)) && Config.edgeHolds)
    let above (r : ClearanceRule) : Bool :=
      !below r && (decide (high r < s) || (decide (s = high r) && start.any (fun a => decide (high r < a)) &&
        target.any (fun t => decide (t < low r)) && Config.edgeHolds))
    let ceiling (r : ClearanceRule) : Option Int :=
      if below r then some (low r)
      else if above r then none
      else
        match target with
        | none => some s
        | some t => if low r ≤ t ∧ high r < t then some t else some s
    let floor (r : ClearanceRule) : Option Int :=
      if above r then some (high r)
      else if below r then none
      else
        match target with
        | none => some s
        | some t => if t < low r then some t else some s
    (∀ u, u ≤ env.2 ↔ u ≤ (live.softHigh : Int) * 1000000 ∧
      ∀ r ∈ rulesInUse live, ruleActive ps r = true → ∀ b ∈ ceiling r, u ≤ b) ∧
    (∀ l, env.1 ≤ l ↔ (live.softLow : Int) * 1000000 ≤ l ∧
      ∀ r ∈ rulesInUse live, ruleActive ps r = true → ∀ b ∈ floor r, b ≤ l) ∧
    ((live.softLow : Int) * 1000000 ≤ s → s ≤ (live.softHigh : Int) * 1000000 →
      (live.softLow : Int) * 1000000 ≤ env.1 ∧ env.1 ≤ s ∧ s ≤ env.2 ∧ env.2 ≤ (live.softHigh : Int) * 1000000)

/-- R73, Law 10: the remaining distance recorded at an end, with the distance travelled, is the cue's total distance to
within the truncation to a millimetre. -/
def Obligations.EndDistancesMakeTotal : Prop :=
  ∀ (s : State) (x : CueContext) (m : MoveInputs), x.move = some m → m.target = mmToNm x.record.cue.target →
    m.dir = moveDir m.s0 m.target → m.total = distance m.s0 m.target → MoveWithin m s.gen.s →
    (remainingMm s x : Int) * 1000000 ≤ m.total - advance m.dir m.s0 s.gen.s.toNat ∧
      m.total - advance m.dir m.s0 s.gen.s.toNat < ((remainingMm s x : Int) + 1) * 1000000

/-! ## Frames of the line -/

/-- R88, R97: a well-formed STATUS from a station with an entry makes that entry FRESH at age 0 with the fields it
carries and keeps its holders; every other entry stays. With a cue running whose group it does not break, a member's
view goes from ARMED to CUE where it shows the cue, and from CUE to FINISHED where it shows that it has left it at 4096
or in the landing condition (R97; also for a member shown TRIPPED, log 59, the model's reading). Nothing else changes;
a malformed STATUS, and one from a station with no entry, change nothing. -/
def Obligations.StatusFrameUpdatesPeer : Prop :=
  ∀ (s : State) (h : Hdr) (payload : List Byte), Settled s → axisFrameTaken s h = true →
    (parseStatus payload = none → exec (.statusFrame h payload) s = .next s) ∧
    (hasPeer s.peers h.sender = false → exec (.statusFrame h payload) s = .next s) ∧
    (∀ c, parseStatus payload = some c → hasPeer s.peers h.sender = true →
      let updated := s.peers.map fun p =>
        if p.station = h.sender then { p with contents := some c, age := 0, fresh := .fresh } else p
      (s.ctl.ctx = none → exec (.statusFrame h payload) s = .next { s with peers := updated }) ∧
      (∀ x, s.ctl.ctx = some x →
        let shown := decide (c.cue = x.record.cue.number)
        let armed := c.armed.any fun p => decide (p.1 = x.record.cue.number)
        let landed := x.record.cue.landing &&
          decide (distance s.gen.s.toNat (x.record.cue.target * 1000000) ≤ s.store.live.landingBand * 1000000)
        let next (v : MemberView) : MemberView :=
          match v with
          | .armed => if shown then .cue else .armed
          | .cue => if !shown && !armed && (decide (c.progress = 4096) || landed) then .finished else .cue
          | .finished => .finished
        let kept (v : MemberView) : Prop :=
          next v = .finished ∨ (c.axis ≠ .tripped ∧ (shown = true ∨ (next v = .armed ∧ armed = true)))
        (x.phase ≠ .running ∨ ∀ v, viewOf x h.sender = some v → kept v) →
        exec (.statusFrame h payload) s = .next { s with
          peers := updated
          ctl := { s.ctl with
            ctx := some { x with views := x.views.map fun v =>
              if v.1 = h.sender then (v.1, next v.2) else v } } }))

/-- R103: in phase RUNNING on a MOVING axis, a STATUS that shows a member seen with the cue to have left it short of
4096, outside the landing condition, makes a controlled end GROUP_BROKEN. -/
def Obligations.MemberLeavingBreaksGroup : Prop :=
  ∀ (s : State) (h : Hdr) (payload : List Byte) (c : PeerContents) (x : CueContext), Settled s →
    axisFrameTaken s h = true → parseStatus payload = some c → hasPeer s.peers h.sender = true →
    s.ctl.ctx = some x → x.phase = .running → s.seq.axis = .moving →
    viewOf x h.sender = some .cue → showsContext c x.record.cue.number = false → c.progress ≠ 4096 →
    ownLanding s.store.live x.record.cue s.gen.s = false →
    Answers (exec (.statusFrame h payload) s) fun t =>
      t.seq.axis = .stopping ∧ t.seq.stopKind = .controlled ∧ t.seq.dest = .parked ∧
      t.ctl.ctx = some { x with phase := .ending, endReason := some .groupBroken, views := (t.ctl.ctx.getD x).views } ∧
      t.ctl.armed = s.ctl.armed ∧ base t = base s ∧ still t = still s ∧ path t.gen = path s.gen

/-- R75, R76: a MARK matches an armed follow cue in WAITING whose follow part names its sender, cue and mark. It moves
each matching cue to DELAYING with its full delay, or to PENDING while a cue runs; no other armed cue and nothing else
changes. A delay of 0 expires at once: the MARK that makes it does what the end of that delay does. -/
def Obligations.MarkTriggersFollowCues : Prop :=
  ∀ (s : State) (h : Hdr) (cue mark : Nat), Settled s → axisFrameTaken s h = true →
    let hit (a : ArmedCue) := markMatches s h.sender cue mark a
    let moved := s.onCtl fun c =>
      { c with armed := s.ctl.armed.map fun a =>
          if hit a then
            { a with trigger := some (if s.ctl.ctx.isNone then .delaying (delayOf s a.cue) else .pending) }
          else a }
    (∀ a, hit a = true ↔ a.trigger = some .waiting ∧
      ∃ r, findCue s.table a.cue = some r ∧ ∃ f ∈ r.cue.follow, f.station = h.sender ∧ f.cue = cue ∧ f.mark = mark) ∧
    ((∀ a ∈ s.ctl.armed, hit a = false) → exec (.markFrame h cue mark) s = .next s) ∧
    ((∀ a ∈ s.ctl.armed, a.trigger ≠ some (.delaying 0)) →
      (s.ctl.ctx = none → ∀ a ∈ s.ctl.armed, hit a = true → delayOf s a.cue ≠ 0) →
      exec (.markFrame h cue mark) s = .next moved) ∧
    (∀ n, s.ctl.ctx = none → (armedNumbers s).Nodup → (∃ a ∈ s.ctl.armed, a.cue = n ∧ hit a = true) →
      delayOf s n = 0 → (∀ a ∈ s.ctl.armed, a.cue ≠ n → hit a = true → delayOf s a.cue ≠ 0) →
      (∀ a ∈ s.ctl.armed, a.trigger ≠ some (.delaying 0) ∧ a.trigger ≠ some .pending) →
      exec (.markFrame h cue mark) s = exec (.followDelayExpiry n) moved)

/-! ## Arming, enable, ends -/

/-- R62: an arming that passes every test adds the cue at the end of the armed list with its window, its trigger
WAITING for a follow cue, joins the peer table, and is recorded. From REST with DRIVE_READY deasserted the drive
wakes with its timer; in any other state but TRIPPED the axis stays, and the rest timer stops. -/
def Obligations.StandbyArmsCue : Prop :=
  ∀ (s : State) (h : Hdr) (cue window : Nat) (set : StationSet) (r : CueRecord), Settled s →
    setFrameTaken s h set = true → findCue s.table cue = some r → s.seq.axis ≠ .tripped → isRunning s cue = false →
    s.meas.referenced = true → isArmed s cue = false → s.ctl.armed.length < 4 → peersFit s.station s.peers r.cue = true →
    (s.seq.axis ≠ .rest → exec (.standby h cue set window) s = .next
      (((s.onCtl fun c => { c with armed := c.armed ++ [armedEntry r window], lastEvent := some (.armed cue) }).onPeers
        (joinPeers s.station r.cue)).onSeq fun q => { q with rest := none })) ∧
    (s.seq.axis = .rest → s.inp.driveReady = false → s.inp.loopOpen = false →
      Answers (exec (.standby h cue set window) s) fun t =>
        t.seq.axis = .waking ∧ t.seq.startReq = .none ∧ t.seq.wake = some s.store.live.wakeTimeout ∧
        driveEn t = true ∧ brakeRel t = false ∧
        t.ctl = { s.ctl with
          armed := s.ctl.armed ++ [armedEntry r window]
          lastEvent := some (.armed cue) } ∧
        t.peers = joinPeers s.station r.cue s.peers ∧ base t = base s ∧ still t = still s ∧ path t.gen = path s.gen)

/-- R62: the tests of an arming in their order, each refusing with its reason in the last event and changing nothing
else; a cue already armed has its window restarted instead. That the event carries the number as the frame gives it, 0 and
numbers above 999 among them, is log 49, the model's choice. -/
def Obligations.StandbyRefusedInOrder : Prop :=
  ∀ (s : State) (h : Hdr) (cue window : Nat) (set : StationSet), Settled s → setFrameTaken s h set = true →
    let refused (reason : RefuseReason) :=
      exec (.standby h cue set window) s = .next (recordEvent (.refused cue reason) s)
    (s.seq.axis = .tripped → refused .tripped) ∧
    (s.seq.axis ≠ .tripped → findCue s.table cue = none → refused .noCue) ∧
    (∀ r, s.seq.axis ≠ .tripped → findCue s.table cue = some r →
      (isRunning s cue = true → refused .runningSame) ∧
      (isRunning s cue = false →
        (s.meas.referenced = false → refused .notHomed) ∧
        (s.meas.referenced = true →
          (isArmed s cue = true → exec (.standby h cue set window) s = .next (restartWindow cue window s)) ∧
          (isArmed s cue = false →
            (4 ≤ s.ctl.armed.length → refused .armFull) ∧
            (s.ctl.armed.length < 4 → peersFit s.station s.peers r.cue = false → refused .peersFull)))))

/-- R63, R64: a CANCEL for an armed cue, and the end of its window, take it from the armed list, release its interests
and record it DISARMED with the reason; with the list then empty on a PARKED axis without a cue the rest timer starts
from its full length. -/
def Obligations.CancelAndWindowDisarm : Prop :=
  ∀ (s : State) (c : Instr) (cue : Nat) (reason : DisarmReason), Settled s →
    ((∃ h set, c = .cancel h cue set ∧ setFrameTaken s h set = true ∧ isArmed s cue = true ∧ reason = .cancel) ∨
      (c = .windowExpiry cue ∧ windowRuns s cue = true ∧ reason = .window)) →
    Answers (exec c s) fun t =>
      t.ctl = { s.ctl with
        armed := s.ctl.armed.filter fun a => decide (a.cue ≠ cue)
        lastEvent := some (.disarmed cue reason) } ∧
      t.peers = releasePeers cue s.peers ∧ { t.seq with rest := s.seq.rest } = s.seq ∧
      (s.seq.axis = .parked → t.ctl.armed = [] → s.ctl.ctx = none → s.store.live.restCount ≠ 0 →
        t.seq.rest = some (s.store.live.restCount * 5000)) ∧
      base t = base s ∧ t.gen = s.gen ∧ t.meas = s.meas ∧ t.guard = s.guard ∧ t.sup = s.sup ∧ t.line = s.line

/-- R65, R66: an ENABLE that names the axis makes enable fresh, restarts the lapse timer and takes the override, at most
100, and the count; one that does not name it changes nothing. The lapse makes enable not fresh; it stops a homing
search, and leaves an axis with no homing request as it is. -/
def Obligations.EnableTakenAndLapses : Prop :=
  ∀ (s : State) (h : Hdr) (set : StationSet) (override : Nat) (count : Byte),
    (setFrameTaken s h set = true → exec (.enable h set override count) s = .next (s.onCtl fun c =>
      { c with
        enableFresh := true
        lapse := some s.store.live.enableLapse
        override := min override 100
        enableCount := count })) ∧
    (setFrameTaken s h set = false → exec (.enable h set override count) s = .next s) ∧
    (Settled s → s.ctl.lapse.isSome = true → s.seq.startReq ≠ .home → s.seq.axis ≠ .homing → s.seq.axis ≠ .stopping →
      exec .lapseTimerExpiry s = .next (s.onCtl fun c => { c with enableFresh := false, lapse := none })) ∧
    (Settled s → s.ctl.lapse.isSome = true → s.seq.axis = .homing →
      exec .lapseTimerExpiry s = .next
        ((s.onCtl fun c =>
          { c with
            enableFresh := false
            lapse := none
            homing := c.homing.map fun r => { r with aborted := true } }).onGen fun g =>
          { g with homing := g.homing.map fun i => { i with phase := .stop } }))

/-- R67, R68, R76: on a WAKING axis a GO that passes its tests, or a follow delay that ends, takes the cue from the armed
list into a context in phase STARTING, records STARTED, sets progress to 0, and the start request becomes CUE without
restarting the wake timer. -/
def Obligations.CueStartsInWaking : Prop :=
  ∀ (s : State) (c : Instr) (cue : Nat) (r : CueRecord), Settled s →
    ((∃ h, c = .go h cue ∧ consoleFrameTaken s h = true) ∨ (c = .followDelayExpiry cue ∧ delayRuns s cue = true)) →
    findCue s.table cue = some r → isArmed s cue = true → s.ctl.ctx = none → s.seq.axis = .waking →
    s.seq.startReq ≠ .home → s.meas.referenced = true → s.ctl.enableFresh = true →
    groupVerdict s.station s.peers r = none → withinBand s r = false →
    (∀ a ∈ s.ctl.armed, a.cue ≠ cue → a.trigger ≠ some (.delaying 0)) →
    exec c s = .next
      ((((s.onCtl fun k =>
        { k with
          armed := k.armed.filter fun a => decide (a.cue ≠ cue)
          ctx := some (newContext s.station s.peers r)
          lastEvent := some (.started cue) }).onGen fun g => { g with progress := 0, fired := [] }).onLine fun l =>
        { l with markLost := false }).onSeq fun q => { q with startReq := .cue })

/-- R8, R9, R67, R68, R73, R144, R145: a GO that passes its tests on a PARKED axis. Outside the in-position band the
release begins: the set-point is the measured position at velocity 0, BRAKE_REL is asserted, the brake timer runs, and
the cue waits in STARTING; a STARTING cue has no direction yet, so the retake fires no mark (log 18, the model's
reading). Where the brake reads released already and no member breaks the group, the move is fixed at once and the axis
is MOVING. Where OVERLOAD is present under RECOVER, which is tested first (log 16, the model's reading), the cue's first
recovery begins and the brake is set toward RECOVERING. Inside the band the cue ends ARRIVED at progress 4096 without a
move. -/
def Obligations.GoReleasesParkedAxis : Prop :=
  ∀ (s : State) (h : Hdr) (cue : Nat) (r : CueRecord), Settled s → consoleFrameTaken s h = true →
    findCue s.table cue = some r → isArmed s cue = true → s.ctl.ctx = none → s.seq.axis = .parked →
    s.seq.startReq ≠ .home → s.meas.referenced = true → s.ctl.enableFresh = true →
    groupVerdict s.station s.peers r = none →
    (∀ a ∈ s.ctl.armed, a.cue ≠ cue → a.trigger ≠ some (.delaying 0)) →
    let x := newContext s.station s.peers r
    let m := fixMove s.store.live r.cue s.meas.measured.toNat
    let others := s.ctl.armed.filter fun a => decide (a.cue ≠ cue)
    let going (x : CueContext) (t : State) : Prop :=
      t.gen.s = s.meas.measured ∧ t.gen.v = 0 ∧ t.gen.progress = 0 ∧ t.gen.fired = [] ∧ t.seq.rest = none ∧
        t.ctl = { s.ctl with armed := others, ctx := some x, lastEvent := some (.started cue) } ∧
        t.line.markLost = false ∧ t.line.marks = s.line.marks ∧ t.peers = s.peers ∧ t.guard = s.guard ∧
        t.sup.latched = s.sup.latched ∧ base t = base s ∧ still t = still s
    (withinBand s r = true → (∀ a ∈ others, a.trigger ≠ some .pending) →
      Answers (exec (.go h cue) s) fun t =>
        t.seq.axis = .parked ∧ t.seq.startReq = s.seq.startReq ∧ t.gen.s = s.gen.s ∧ t.gen.v = s.gen.v ∧
          t.gen.progress = 4096 ∧ t.gen.fired = [] ∧
          t.ctl = { s.ctl with armed := others, ctx := none, lastEvent := some (.ended cue .arrived 0) } ∧
          t.line.markLost = false ∧ t.line.marks = s.line.marks ∧ t.peers = releasePeers cue s.peers ∧
          t.guard = s.guard ∧ t.sup.latched = s.sup.latched ∧ base t = base s ∧ still t = still s) ∧
    (withinBand s r = false → (∀ d ∈ s.sup.present, classOf s d ≠ .recover) →
      (s.inp.brakeReleased = false → Answers (exec (.go h cue) s) fun t => going x t ∧
        t.seq.axis = .releasing ∧ t.seq.startReq = .cue ∧ t.seq.brake = some s.store.live.brakeTime ∧
          brakeRel t = true ∧ (s.inp.loopOpen = false → driveEn t = true)) ∧
      (s.inp.brakeReleased = true →
        (∀ v ∈ x.views, ∀ c, memberContents s.peers v.1 = some c → breaksGroup cue c v.2 = false) →
        Answers (exec (.go h cue) s) fun t => going { x with move := some m, phase := .running } t ∧
          t.seq.axis = .moving ∧ t.seq.startReq = .none ∧ t.seq.brake = none ∧ brakeRel t = true)) ∧
    (withinBand s r = false → s.sup.recovery = none → isPresent s .overload = true →
      classOf s .overload = .recover → (∀ d ∈ s.sup.present, d ≠ .overload → classOf s d ≠ .recover) →
      Answers (exec (.go h cue) s) fun t => going { x with recoveries := 1 } t ∧
        t.sup.recovery = some ⟨[.overload], none, 0⟩ ∧ brakeRel t = false ∧ t.seq.startReq = .none ∧
        (if s.inp.brakeReleased then
          t.seq.axis = .setting ∧ t.seq.dest = .recovering ∧ t.seq.brake = some s.store.live.brakeTime
        else t.seq.axis = .recovering ∧ t.seq.brake = none))

/-- R67, R76: the tests of a start in their order. A refused GO records its reason and changes nothing else; a follow
delay refused records it and the cue waits again. -/
def Obligations.StartRefusedInOrder : Prop :=
  ∀ (s : State) (h : Hdr) (cue : Nat) (r : CueRecord), Settled s → consoleFrameTaken s h = true →
    findCue s.table cue = some r → isRunning s cue = false →
    let refused (reason : RefuseReason) := exec (.go h cue) s = .next (recordEvent (.refused cue reason) s)
    let waits (reason : RefuseReason) := delayRuns s cue = true →
      exec (.followDelayExpiry cue) s = .next (recordEvent (.refused cue reason) (setTrigger cue .waiting s))
    (isArmed s cue = false → refused .notArmed) ∧
    (isArmed s cue = true →
      (startAllowed s = false → refused .busy ∧ waits .busy) ∧
      (startAllowed s = true →
        (s.meas.referenced = false → refused .notHomed ∧ waits .notHomed) ∧
        (s.meas.referenced = true →
          (s.ctl.enableFresh = false → refused .noEnable ∧ waits .noEnable) ∧
          (s.ctl.enableFresh = true → ∀ reason, groupVerdict s.station s.peers r = some reason →
            refused reason ∧ waits reason))))

/-- R14, R16, R35, R72, R73, R77: a STOP by the state of the axis. MOVING: the stop is CONTROLLED toward PARKED, the phase
ENDING with reason ABANDONED. WAKING with the phase STARTING: the cue ends at once and the wake goes on. RELEASING and
HELD: the cue ends at once and the brake is set toward PARKED. SUSPENDED and RECOVERING: the cue ends at once and the
axis is PARKED. SETTING toward one of these two: the cue ends at once and the destination is PARKED. A FAST stop goes on,
a destination RECOVERING becoming PARKED, the phase ENDING. At an end the PENDING follow cues are disarmed CHAIN_BROKEN.
A cue already ENDING and an axis without a cue are left as they are. In each calm period of a CONTROLLED stop the velocity
target is 0 within the envelope and the measured position of the same period (log 13, the model's reading of the order);
at velocity 0 or at the target the cue ends with its reason and the brake is set. -/
def Obligations.StopEndsCue : Prop :=
  ∀ (s : State) (h : Hdr) (set : StationSet), Settled s →
    (setFrameTaken s h set = true →
      let calm (t : State) : Prop :=
        t.guard = s.guard ∧ t.sup.latched = s.sup.latched ∧ base t = base s ∧ still t = still s ∧ path t.gen = path s.gen
      (∀ x ∈ s.ctl.ctx, x.phase ≠ .ending →
        let goesOn (t : State) : Prop :=
          calm t ∧ t.ctl = { s.ctl with ctx := some { x with phase := .ending, endReason := some .abandoned } } ∧
            t.peers = s.peers
        let ended (t : State) : Prop :=
          calm t ∧ t.gen.fired = [] ∧ t.sup.recovery = none ∧
            t.ctl = { s.ctl with
              ctx := none
              armed := s.ctl.armed.filter fun a => !(pendingCues s).contains a.cue
              lastEvent := some (match (pendingCues s).getLast? with
                | none => .ended x.record.cue.number .abandoned (remainingMm s x)
                | some n => .disarmed n .chainBroken) } ∧
            t.peers = (pendingCues s).foldl (fun ps n => releasePeers n ps) (releasePeers x.record.cue.number s.peers)
        (s.seq.axis = .moving → Answers (exec (.stop h set) s) fun t => goesOn t ∧
          t.seq.axis = .stopping ∧ t.seq.stopKind = .controlled ∧ t.seq.dest = .parked) ∧
        (s.seq.axis = .stopping → s.seq.stopKind = .fast → Answers (exec (.stop h set) s) fun t => goesOn t ∧
          t.seq = { s.seq with dest := if s.seq.dest = .recovering then .parked else s.seq.dest }) ∧
        (s.seq.axis = .waking → x.phase = .starting → Answers (exec (.stop h set) s) fun t => ended t ∧
          t.seq = { s.seq with startReq := .none }) ∧
        (s.seq.axis = .releasing ∨ s.seq.axis = .held → Answers (exec (.stop h set) s) fun t => ended t ∧
          brakeRel t = false ∧ t.seq.startReq = .none ∧ t.seq.hold = none ∧
          (if s.inp.brakeReleased then
            t.seq.axis = .setting ∧ t.seq.dest = .parked ∧ t.seq.brake = some s.store.live.brakeTime
          else t.seq.axis = .parked ∧ t.seq.brake = none)) ∧
        (s.seq.axis = .suspended ∨ s.seq.axis = .recovering → Answers (exec (.stop h set) s) fun t => ended t ∧
          t.seq.axis = .parked ∧ t.meas.pendingDuty = 2048) ∧
        (s.seq.axis = .setting → s.seq.dest = .suspended ∨ s.seq.dest = .recovering →
          Answers (exec (.stop h set) s) fun t => ended t ∧ t.seq = { s.seq with dest := .parked })) ∧
      ((∀ x ∈ s.ctl.ctx, x.phase = .ending) → exec (.stop h set) s = .next s)) ∧
    (∀ x ∈ s.ctl.ctx, ∀ m ∈ x.move, Unreferencing s → CalmUnder m.vmax s → s.seq.axis = .stopping →
      s.seq.stopKind = .controlled → x.phase = .ending → s.gen.homing = none →
      let p := periodStep s m 0
      let point := steppedPoint m s.gen.s p
      FollowsWithin s point (periodMeasured s) →
      let stopping (t : State) : Prop :=
        PeriodTaken s t ∧ MovedTo s t x m point p.v m.decel ∧ t.sup.latched = s.sup.latched ∧ base t = base s
      p.v ≤ s.gen.v ∧
      (p.arrived = false → p.v ≠ 0 → Answers (exec .profilePeriod s) fun t => stopping t ∧
        t.seq = s.seq ∧ t.ctl = { s.ctl with ctx := some (pacedContext s x) } ∧ t.peers = s.peers) ∧
      (p.arrived = true ∨ p.v = 0 → pendingCues s = [] → (∀ a ∈ s.ctl.armed, a.trigger ≠ some (.delaying 0)) →
        s.inp.brakeReleased = true → Answers (exec .profilePeriod s) fun t => stopping t ∧
          t.seq.axis = .setting ∧ t.seq.dest = s.seq.dest ∧ t.seq.brake = some s.store.live.brakeTime ∧
          brakeRel t = false ∧
          t.ctl = { s.ctl with
            ctx := none
            lastEvent := some (.ended x.record.cue.number (reasonOf x)
              (distance point.toNat (x.record.cue.target * 1000000) / 1000000)) } ∧
          t.peers = releasePeers x.record.cue.number s.peers))

/-! ## Holds, recoveries, line reset -/

/-- R71, R147: past its hold limit a RUNNING cue in SUSPENDED, and a cue in RECOVERING whose conditions are all absent
(a STARTING one past its recovery wait), ends HOLD_LIMIT on a PARKED axis. In RECOVERING with conditions present they
are latched, the axis trips, and the cue ends FAULT naming the first. -/
def Obligations.HoldLimitEndsCue : Prop :=
  ∀ (s : State) (x : CueContext), Settled s → s.ctl.ctx = some x →
    let ended (t : State) : Prop :=
      t.seq.axis = .parked ∧ t.seq.startReq = .none ∧
        t.ctl = { s.ctl with
          ctx := none
          lastEvent := some (.ended x.record.cue.number .holdLimit (remainingMm s x)) } ∧
        t.sup.recovery = none ∧ t.sup.latched = s.sup.latched ∧ t.peers = releasePeers x.record.cue.number s.peers ∧
        t.guard = s.guard ∧ base t = base s ∧ still t = still s ∧ path t.gen = path s.gen
    (pendingCues s = [] → x.phase = .running → s.seq.axis = .suspended →
      Answers (exec .holdLimitExceeded s) ended) ∧
    (∀ r, pendingCues s = [] → s.sup.recovery = some r → s.seq.axis = .recovering →
      (∀ c ∈ r.conds, isPresent s c = false) →
      (x.phase = .running → Answers (exec .holdLimitExceeded s) ended) ∧
        (x.phase = .starting → Answers (exec .recoveryWaitExceeded s) ended)) ∧
    (∀ r c rest, s.sup.recovery = some r → s.seq.axis = .recovering → r.conds.filter (isPresent s) = c :: rest →
      let refused (t : State) : Prop :=
        t.seq.axis = .tripped ∧ brakeRel t = false ∧
          t.sup.latched = (c :: rest).foldl (fun l d => insertCondition d l) s.sup.latched ∧ t.sup.recovery = none ∧
          t.ctl.ctx = none ∧ t.ctl.armed = [] ∧ EndedByTrip c s t ∧ TripFrame s t
      (x.phase = .running → Answers (exec .holdLimitExceeded s) refused) ∧
        (x.phase = .starting → Answers (exec .recoveryWaitExceeded s) refused))

/-- R146, R20, R8, R25: at the end of the dwell a RUNNING cue on a RECOVERING axis, no RECOVER-class condition present
and the brake reading set, is released again: the recovery record goes, the set-point is the measured position or the
target where that lies beyond it, its velocity 0, marks passed by the retake fire, and the cue keeps its move. R12, R24,
R34: in each calm period of SUSPENDED the set-point stands; where the velocity target is above 0 and the acceleration
fits the room, or creep is allowed, the release begins in the same way, else the axis stays. The model's readings: the
envelope and the measured position are those of the same period (log 13), and creep is allowed by the three conditions of
R33, whatever velocity would be chosen (log 63). -/
def Obligations.DwellReleasesAgain : Prop :=
  ∀ (s : State) (x : CueContext) (m : MoveInputs), Settled s → s.ctl.ctx = some x → x.phase = .running →
    x.move = some m → s.inp.brakeReleased = false → s.inp.loopOpen = false →
    let released (measured : Position) (t : State) : Prop :=
      t.seq.axis = .releasing ∧ t.seq.startReq = .none ∧ t.seq.brake = some s.store.live.brakeTime ∧
        brakeRel t = true ∧ driveEn t = true ∧ t.sup.latched = s.sup.latched ∧ t.gen.s = retakeFor m measured ∧
        t.gen.v = 0 ∧ t.gen.fired = joinFired s.gen.fired (firedAt s x m (retakeFor m measured)) ∧
        t.line.marks =
          ((firedAt s x m (retakeFor m measured)).foldl (queueMark x.record.cue.number) s).line.marks ∧
        t.peers = s.peers ∧ base t = base s
    (s.seq.axis = .recovering → (∀ d ∈ s.sup.present, classOf s d ≠ .recover) →
      ∀ r ∈ s.sup.recovery, r.dwell.isSome = true → Answers (exec .dwellExpiry s) fun t =>
        released s.meas.measured t ∧ t.sup.recovery = none ∧ t.ctl = s.ctl ∧ t.gen.progress = s.gen.progress ∧
        t.gen.pub = s.gen.pub ∧ t.guard = s.guard ∧ still t = still s) ∧
    (s.seq.axis = .suspended → Unreferencing s → CalmUnder m.vmax s → s.gen.homing = none →
      let target := periodTarget s x m false
      let rt := remainingTo m s.gen.s
      let resumes := 0 < target ∧ (m.accel ≤ min rt (periodRoom s m) ∨ (0 < rt ∧ rt ≤ m.accel ∧ rt ≤ periodRoom s m))
      let held (t : State) : Prop :=
        PeriodTaken s t ∧ t.gen.stopPoint = s.gen.s ∧ t.gen.pub = ⟨s.gen.s.toNat / 1000, 0, s.gen.s.toNat / 1000⟩ ∧
          t.gen.progress = max s.gen.progress (progressValue m s.gen.s) ∧ t.meas.pendingDuty = 2048 ∧
          t.ctl = { s.ctl with ctx := some (pacedContext s x) }
      (¬resumes → Answers (exec .profilePeriod s) fun t => held t ∧ t.seq = s.seq ∧ t.gen.s = s.gen.s ∧ t.gen.v = 0 ∧
        t.sup.latched = s.sup.latched ∧ t.line.marks = s.line.marks ∧ t.peers = s.peers ∧ base t = base s) ∧
      (resumes → (∀ d ∈ s.sup.present, d ≠ .following → classOf s d ≠ .recover) →
        Answers (exec .profilePeriod s) fun t => held t ∧ released (periodMeasured s) t))

/-- R80, R92, R164: a line reset that names the axis disarms every cue, takes enable and sets the override to 100,
makes clearance entries UNHEARD, and fills the ANNOUNCE and STATUS slots; a cue moving is stopped with reason
LINE_RESET. One that does not name it changes nothing. -/
def Obligations.LineResetClearsCalls : Prop :=
  ∀ (s : State) (h : Hdr) (set : StationSet), Settled s →
    (setFrameTaken s h set = false → exec (.linereset h set) s = .next s) ∧
    (setFrameTaken s h set = true → s.seq.startReq ≠ .home → s.ctl.homing = none → s.gen.homing = none →
      Answers (exec (.linereset h set) s) fun t =>
        t.ctl.armed = [] ∧ t.ctl.enableFresh = false ∧ t.ctl.lapse = none ∧ t.ctl.override = 100 ∧
        t.ctl.enableCount = s.ctl.enableCount ∧
        (s.ctl.ctx = none →
          t.ctl.ctx = none ∧ t.ctl.lastEvent =
            (s.ctl.armed.getLast?.map fun a => CueEvent.disarmed a.cue .lineReset).or s.ctl.lastEvent ∧
          t.peers = unhearClearance ((s.ctl.armed.map (·.cue)).foldl (fun ps n => releasePeers n ps) s.peers) ∧
          { t.seq with rest := s.seq.rest } = s.seq ∧ t.sup = s.sup ∧ t.meas = s.meas) ∧
        (∀ x, s.ctl.ctx = some x → x.phase ≠ .ending → s.seq.axis = .moving →
          t.seq.axis = .stopping ∧ t.seq.stopKind = .controlled ∧ t.seq.dest = .parked ∧
            t.ctl.ctx = some { x with phase := .ending, endReason := some .lineReset }) ∧
        t.line.announce =
          some ⟨0, none, ⟨.lineReset, s.store.revision, s.table.length, s.store.cueState⟩⟩ ∧
        (∃ q, t.line.status = some q ∧ q.body.axis = t.seq.axis ∧ q.body.override = 100 ∧
          q.body.enableFresh = false) ∧
        t.line.timer = some s.store.live.statusInterval ∧ t.line.marks = s.line.marks ∧
        t.line.replies = s.line.replies ∧ t.line.seqCount = s.line.seqCount ∧ t.line.markLost = s.line.markLost ∧
        t.gen.s = s.gen.s ∧ t.gen.v = s.gen.v ∧ t.guard = s.guard ∧ base t = base s)

/-! ## Requests -/

/-- R150, R21: a CLEAR removes the latched conditions that are absent. It empties the set of a TRIPPED axis into REST
with the drive off; while one stays latched, or on the way to TRIPPED, the answer is STILL_ACTIVE. Addressed to 0 it
acts by its set and is not answered. -/
def Obligations.ClearAnswersAndRests : Prop :=
  ∀ (s : State) (h : Hdr) (set : StationSet), Settled s →
    let rested (t : State) : Prop :=
      t.seq.axis = .rest ∧ t.sup.latched = [] ∧ driveEn t = false ∧ brakeRel t = false ∧
        t.meas.pendingDuty = 2048 ∧ t.meas.activeDuty = 2048 ∧ t.ctl = s.ctl ∧ t.peers = s.peers ∧
        t.guard = s.guard ∧ senses t.meas = senses s.meas ∧ path t.gen = path s.gen ∧ base t = base s
    let kept := s.sup.latched.filter fun c => s.sup.present.contains c
    (requestTaken s h = true → stoppingToTrip s = true →
      exec (.clear h set) s = .next (answer h .clear .stillActive 0 s)) ∧
    (requestTaken s h = true → stoppingToTrip s = false → s.seq.axis ≠ .tripped →
      exec (.clear h set) s = .next
        (answer h .clear (if kept = [] then .done else .stillActive) 0 (s.onSup fun p => { p with latched := kept }))) ∧
    (requestTaken s h = true → s.seq.axis = .tripped → kept = [] →
      Answers (exec (.clear h set) s) fun t => rested t ∧
        t.line.replies = s.line.replies ++ [⟨0, none, .reply ⟨h.sender, .clear, h.seq, .done, 0⟩⟩]) ∧
    (requestTaken s h = true → s.seq.axis = .tripped → kept ≠ [] →
      Answers (exec (.clear h set) s) fun t => t.seq = s.seq ∧ t.sup.latched = kept ∧ t.ctl = s.ctl ∧
        t.line = { s.line with
          replies := s.line.replies ++ [⟨0, none, .reply ⟨h.sender, .clear, h.seq, .stillActive, 0⟩⟩] } ∧
        driveEn t = (!s.inp.loopOpen && kept.contains .brakeSet && !kept.contains .estop &&
          !kept.any Condition.isDrop) ∧
        t.peers = s.peers ∧ t.guard = s.guard ∧ t.gen = s.gen ∧ senses t.meas = senses s.meas ∧ base t = base s) ∧
    (consoleFrameTaken s h = true → h.addressee = 0 → inSet set s.station = true → s.seq.axis = .tripped → kept = [] →
      Answers (exec (.clear h set) s) fun t => rested t ∧ t.line.replies = s.line.replies) ∧
    (consoleFrameTaken s h = true → h.addressee = 0 → inSet set s.station = false → exec (.clear h set) s = .next s)

/-- R125, R8, R6: a HOME that passes its tests is answered DONE and starts a homing move: from PARKED the release begins
at once, from REST the drive is woken first, with start request HOME. Its tests refuse in order with nothing but the
answer; addressed to 0 it is discarded. R37, R38, R120, R127 to R129: each period of the move references a captured
count and shifts the move with it, aborts on an active rule, takes the step toward the homing speed or, in phase STOP,
toward 0, and goes on, ends HOMED or HOME_ABORTED with the brake set, or at the end of the travel with nothing captured
latches HOME_MISS and stops toward TRIPPED. The order of reference and abort in a period is log 13 (DEDUCED). -/
def Obligations.HomeStartsOrRefuses : Prop :=
  ∀ (s : State) (h : Hdr), Settled s →
    let done : List (Queued ReplyBody) := s.line.replies ++ [⟨0, none, .reply ⟨h.sender, .home, h.seq, .done, 0⟩⟩]
    (requestTaken s h = true →
      (homeIdle s = false → exec (.home h) s = .next (answer h .home .notIdle 0 s)) ∧
      (homeIdle s = true → s.ctl.enableFresh = false → exec (.home h) s = .next (answer h .home .noEnable 0 s)) ∧
      (homeIdle s = true → s.ctl.enableFresh = true → clearVerdict s = false →
        exec (.home h) s = .next (answer h .home .homeBlocked 0 s))) ∧
    (requestTaken s h = true → s.ctl.ctx = none → s.seq.startReq ≠ .home → s.ctl.enableFresh = true →
      clearVerdict s = true → s.inp.loopOpen = false →
      (s.seq.axis = .parked → s.inp.brakeReleased = false → (∀ d ∈ s.sup.present, classOf s d ≠ .recover) →
        Answers (exec (.home h) s) fun t =>
          t.seq.axis = .releasing ∧ t.seq.startReq = .home ∧ t.seq.brake = some s.store.live.brakeTime ∧
          t.seq.rest = none ∧ brakeRel t = true ∧ driveEn t = true ∧ t.gen.s = s.meas.measured ∧ t.gen.v = 0 ∧
          t.line.replies = done ∧ t.ctl = { s.ctl with homing := some ⟨false, false, false⟩ } ∧
          t.peers = s.peers ∧ t.guard = s.guard ∧ senses t.meas = senses s.meas ∧ base t = base s) ∧
      (s.seq.axis = .rest → s.inp.driveReady = false →
        Answers (exec (.home h) s) fun t =>
          t.seq.axis = .waking ∧ t.seq.startReq = .home ∧ t.seq.wake = some s.store.live.wakeTimeout ∧
          brakeRel t = false ∧ driveEn t = true ∧ t.line.replies = done ∧
          t.ctl = { s.ctl with homing := some ⟨false, false, false⟩ } ∧ t.peers = s.peers ∧ t.guard = s.guard ∧
          path t.gen = path s.gen ∧ senses t.meas = senses s.meas ∧ base t = base s)) ∧
    (h.addressee = 0 → exec (.home h) s = .next s) ∧
    (∀ hm ∈ s.gen.homing, ∀ run ∈ s.ctl.homing, s.held = none → s.seq.axis = .homing → s.ctl.ctx = none →
      CalmUnder (s.store.live.homeSpeed * 1000) s →
      let live := s.store.live
      let found : Option (BitVec 32) :=
        match s.meas.capture with
        | .held k => some k
        | .armed => none
        | .disarmed => none
      let offset : Int :=
        match found with
        | none => s.meas.offset
        | some k => ((live.homePos * 1000000 : Nat) : Int) - k.toInt * live.nmPerCount
      let start := narrowPosition ((s.gen.s.toNat : Int) + (offset - s.meas.offset))
      let measured := clampPosition (offset + s.meas.count.toInt * live.nmPerCount)
      let aborts := decide (hm.phase = .search) && (periodActive s).any id && !s.guard.notice
      let stops := decide (hm.phase = .stop) || found.isSome || aborts
      let move := { hm with h0 := hm.h0 + (offset - s.meas.offset), phase := if stops then .stop else .search }
      let p := homingPeriod s.gen.v (if stops then 0 else hm.vmax) hm.accel (homingRemaining move start)
      let point := forward hm.dir start p.step
      let after := { run with
        aborted := run.aborted || aborts
        referenced := run.referenced || found.isSome }
      let missed := p.arrived && decide (s.meas.capture = .armed)
      let ends := decide (p.v = 0) && (p.arrived || stops)
      let searched (t : State) : Prop :=
        t.gen.s = point ∧ t.gen.v = p.v ∧ t.meas.offset = offset ∧ t.meas.measured = measured ∧
          t.meas.referenced = (s.meas.referenced || found.isSome) ∧ t.guard.active = periodActive s ∧
          t.guard.notice = (s.guard.notice || aborts) ∧ t.peers = s.peers ∧ base t = base s
      FollowsWithin s point measured →
      (missed = false → ends = false → Answers (exec .profilePeriod s) fun t => searched t ∧ t.seq = s.seq ∧
        t.ctl = { s.ctl with homing := some after } ∧ t.gen.homing = some move ∧ t.sup.latched = s.sup.latched ∧
        t.meas.capture = (if found.isSome then .disarmed else s.meas.capture)) ∧
      (missed = false → ends = true → s.inp.brakeReleased = true → after.aborted = true ∨ after.referenced = true →
        Answers (exec .profilePeriod s) fun t => searched t ∧ t.seq.axis = .setting ∧ t.seq.dest = .parked ∧
          t.seq.brake = some live.brakeTime ∧ brakeRel t = false ∧ t.gen.homing = none ∧
          t.sup.latched = s.sup.latched ∧ t.ctl = { s.ctl with
            homing := none
            lastEvent := some (.homingEnded (if after.aborted then .homeAborted else .homed)) }) ∧
      (missed = true → Answers (exec .profilePeriod s) fun t => searched t ∧ t.seq.axis = .stopping ∧
        t.seq.stopKind = .fast ∧ t.seq.dest = .tripped ∧ t.sup.latched = insertCondition .homeMiss s.sup.latched ∧
        t.ctl = { s.ctl with homing := some { after with missed := true } } ∧ t.meas.capture = .disarmed))

/-- R54, R56: the tests of a CUELOAD in their order, and what one that passes them does: its record, with its signature
computed afresh, stands under its number, every other number keeps its record, and the answer carries the signature. -/
def Obligations.CueloadTestedThenTaken : Prop :=
  ∀ (s : State) (h : Hdr) (req : CueLoad), requestTaken s h = true →
    let n := (recordOf req).number
    let rec' : CueRecord := ⟨recordOf req, signatureOf (recordOf req)⟩
    (s.store.saving.isSome = true → exec (.cueload h req) s = .next (answer h .cueload .saving 0 s)) ∧
    (s.store.saving = none →
      (∀ ident, firstBadField s.store.live s.station req = some ident →
        exec (.cueload h req) s = .next (answer h .cueload .badField ident s)) ∧
      (firstBadField s.store.live s.station req = none →
        (isRunning s n = true → exec (.cueload h req) s = .next (answer h .cueload .cueInUse 2 s)) ∧
        (isRunning s n = false → isArmed s n = true →
          exec (.cueload h req) s = .next (answer h .cueload .cueInUse 1 s)) ∧
        (isRunning s n = false → isArmed s n = false →
          (200 ≤ s.table.length → findCue s.table n = none →
            exec (.cueload h req) s = .next (answer h .cueload .tableFull 200 s)) ∧
          (TableLawful s → s.table.length < 200 ∨ (findCue s.table n).isSome = true →
            Answers (exec (.cueload h req) s) fun t =>
              findCue t.table n = some rec' ∧ (∀ k, k ≠ n → findCue t.table k = findCue s.table k) ∧
              t.table.length = s.table.length + (if (findCue s.table n).isSome then 0 else 1) ∧ TableLawful t ∧
              { t with table := s.table } = answer h .cueload .done rec'.sig.toNat s))))

/-- R58: the tests of a CUEDROP in their order, and its effect: the record goes, the others keep their order, and the
answer carries the new count. A CUEASK (R59) is answered with what the table holds, in a CUEREPORT to its sender (log 58, the model's choice), and
changes nothing else. -/
def Obligations.CuedropTestedThenTaken : Prop :=
  ∀ (s : State) (h : Hdr) (n : Nat), requestTaken s h = true →
    (s.store.saving.isSome = true → exec (.cuedrop h n) s = .next (answer h .cuedrop .saving 0 s)) ∧
    (s.store.saving = none → findCue s.table n = none →
      exec (.cuedrop h n) s = .next (answer h .cuedrop .noCue 0 s)) ∧
    (s.store.saving = none → (findCue s.table n).isSome = true →
      (isRunning s n = true → exec (.cuedrop h n) s = .next (answer h .cuedrop .cueInUse 2 s)) ∧
      (isRunning s n = false → isArmed s n = true →
        exec (.cuedrop h n) s = .next (answer h .cuedrop .cueInUse 1 s)) ∧
      (TableLawful s → isRunning s n = false → isArmed s n = false →
        exec (.cuedrop h n) s = .next (answer h .cuedrop .done (s.table.length - 1)
          { s with table := s.table.filter fun r => decide (r.cue.number ≠ n) }))) ∧
    (∀ form, exec (.cueask h n form) s = .next (queueReply (.report
      { addressee := h.sender, seq := h.seq, cue := n, form := form, count := s.table.length
        found := (askedRecord s.table n form).map fun r => (r, useOf s r.cue.number) }) s)) ∧
    (∀ r, TableLawful s → (askedRecord s.table n .fromNumber = some r ↔
      r ∈ s.table ∧ n ≤ r.cue.number ∧ ∀ q ∈ s.table, n ≤ q.cue.number → r.cue.number ≤ q.cue.number))

/-- R170, R163: an accepted SAVE marks the store invalid, holds the table as it stands and reserves its answer; one
during a save is refused, and one that comes while a SETUP is being written waits for the end of that write (R159; log
52, the model's reading). At its completion the table held is in the store with its count and their check, and the
reservation has become DONE with the count of records, in the same place. A completion with no SAVE in flight changes
nothing (log 2, the model's reading). -/
def Obligations.SaveWritesTable : Prop :=
  ∀ (s : State) (h : Hdr),
    (requestTaken s h = true → s.store.writing = true → exec (.save h) s = .next
      (s.onStore fun t => { t with waiting := t.waiting ++ [.save h] })) ∧
    (requestTaken s h = true → s.store.writing = false → s.store.saving = none → exec (.save h) s = .next
      ((queueReply (.reservation .save h.sender h.seq) s).onStore fun t =>
        { t with
          nvCues := { t.nvCues with valid := false }
          cueState := .bad
          saving := some (s.table.map (·.cue)) })) ∧
    (∀ nv : NvCues, nv.valid = false → nv.good = false) ∧
    (requestTaken s h = true → s.store.writing = false → s.store.saving.isSome = true →
      exec (.save h) s = .next (answer h .save .saving 0 s)) ∧
    (s.store.saving = none → exec .saveComplete s = .next s) ∧
    (∀ records l₁ e l₂ asker seq, s.store.saving = some records → s.line.replies = l₁ ++ e :: l₂ →
      e.body = .reservation .save asker seq → (∀ q ∈ l₁, ∀ k b, q.body ≠ .reservation .save k b) →
      let written : NvCues :=
        { valid := true, count := records.length, records := records, check := cueCheck records.length records }
      written.good = true ∧ exec .saveComplete s = .next
        ((s.onStore fun t =>
          { t with
            nvCues := written
            cueState := if records = [] then .empty else .good
            saving := none }).onLine fun l =>
          { l with replies := l₁ ++ { e with body := .reply ⟨asker, .save, seq, .done, records.length⟩ } :: l₂ }))

/-- R169, R163: the tests of a SETUP in their order; one that passes puts its value in the stored image alone, raises
the revision and reserves its answer; when the write is complete the block holds image and revision with their check,
and the answer carries the revision. One that finds no free REPLY place is discarded (R159). One that comes during a
write waits and is acted on after it, by the key and the state of that moment (R159); so does a SAVE (log 52, the
model's reading). What the key then reads is a free value (log 62); that a waiting request has its REPLY place is log 33,
the model's reading. A value is good exactly within its field's range of R167, a class where R137 allows it, a rule's
peer where it is not the own station; a good value changes its field and no other. That a SETUP carries a number, a
direction or a class, and that one of the wrong sort for its field is out of range, is log 34, the model's reading. -/
def Obligations.SetupTestedThenWritten : Prop :=
  ∀ (s : State) (h : Hdr) (ident : Nat) (value : SetupValue) (key : Bool),
    let keyed := s.onInp fun p => { p with maintKey := key }
    (consoleFrameTaken s h = true → h.addressee = s.station → replyFree s = false →
      exec (.setup h ident value key) s = .next keyed) ∧
    (requestTaken s h = true → s.store.writing = false →
      (key = false → exec (.setup h ident value key) s = .next (answer h .setup .notMaint 0 keyed)) ∧
      (key = true → setupIdle s = false → exec (.setup h ident value key) s = .next (answer h .setup .notIdle 0 keyed)) ∧
      (key = true → setupIdle s = true → applySetup s.station s.store.image ident value = none →
        exec (.setup h ident value key) s = .next (answer h .setup .range ident keyed)) ∧
      (∀ image, key = true → setupIdle s = true → applySetup s.station s.store.image ident value = some image →
        exec (.setup h ident value key) s = .next
          ((queueReply (.reservation .setup h.sender h.seq) keyed).onStore fun t =>
            { t with image := image, revision := t.revision + 1, writing := true }))) ∧
    (requestTaken s h = true → s.store.writing = true → exec (.setup h ident value key) s = .next
      (keyed.onStore fun t => { t with waiting := t.waiting ++ [.setup h ident value] })) ∧
    (∀ l₁ e l₂ asker seq, s.store.writing = true → s.line.replies = l₁ ++ e :: l₂ →
      e.body = .reservation .setup asker seq → (∀ q ∈ l₁, ∀ k b, q.body ≠ .reservation .setup k b) →
      let written : NvSetup := ⟨s.store.image, s.store.revision, setupCheck s.store.image s.store.revision⟩
      let done := (s.onStore fun t => { t with nvSetup := written, writing := false, waiting := [] }).onLine fun l =>
        { l with
          replies := l₁ ++ { e with body := .reply ⟨asker, .setup, seq, .done, s.store.revision.toNat⟩ } :: l₂ }
      written.good = true ∧ (s.store.waiting = [] → exec .setupWriteComplete s = .next done) ∧
        (∀ k, s.line.replies.length < 4 → consoleFrameTaken s k = true → k.addressee = s.station →
          (s.store.waiting = [.save k] → exec .setupWriteComplete s = exec (.save k) done) ∧
          (∀ i v, s.store.waiting = [.setup k i v] → exec .setupWriteComplete s =
            exec (.setup k i v (Config.maintKey s.freeCount)) { done with freeCount := s.freeCount + 1 }))) ∧
    (∀ (own : Nat) (S : Setup) (i n : Nat) (r : Nat × Nat), fieldRange i = some r →
      (n < r.1 ∨ r.2 < n → applySetup own S i (.num n) = none) ∧
      (r.1 ≤ n → n ≤ r.2 → ∃ S', applySetup own S i (.num n) = some S' ∧ fieldValue S' i = n ∧
        (∀ j ∈ numericFields, j ≠ i → fieldValue S' j = fieldValue S j) ∧
        S'.homeDir = S.homeDir ∧ S'.clsFollowing = S.clsFollowing ∧ S'.clsOverload = S.clsOverload ∧
        S'.clsSlack = S.clsSlack ∧ S'.clsLoadSensor = S.clsLoadSensor ∧ S'.rules = S.rules)) ∧
    (∀ (own : Nat) (S : Setup) (d : Dir), applySetup own S 5 (.dir d) = some { S with homeDir := d }) ∧
    (∀ (own : Nat) (S : Setup) (k : RespClass),
      applySetup own S 30 (.cls k) = (if k ∈ [RespClass.latch, .recover] then some { S with clsFollowing := k } else none) ∧
      applySetup own S 31 (.cls k) =
        (if k ∈ [RespClass.latch, .recover, .note] then some { S with clsOverload := k } else none) ∧
      applySetup own S 32 (.cls k) = some { S with clsSlack := k } ∧
      applySetup own S 33 (.cls k) = (if k ∈ [RespClass.latch, .note] then some { S with clsLoadSensor := k } else none)) ∧
    (∀ (own : Nat) (S : Setup) (rule : Fin 8) (place lo hi n : Nat),
      (place, lo, hi) ∈
        [(1, 1, 47), (2, 0, 40000), (3, 0, 40000), (4, 0, 40000), (5, 0, 40000), (6, 0, 500)] →
      let fields (r : ClearanceRule) := [r.peer, r.peerLow, r.peerHigh, r.ownLow, r.ownHigh, r.margin]
      let answer := applySetup own S (100 * (rule + 1) + place) (.num n)
      (n < lo ∨ hi < n → answer = none) ∧ (place = 1 → n = own → answer = none) ∧
      (lo ≤ n → n ≤ hi → (place = 1 → n ≠ own) → ∃ S', answer = some S' ∧
        fields S'.rules[rule] = (fields S.rules[rule]).set (place - 1) n ∧
        (∀ j : Fin 8, j ≠ rule → S'.rules[j] = S.rules[j]) ∧ { S' with rules := S.rules } = S)) ∧
    (∀ (own : Nat) (S : Setup) (i : Nat),
      (∀ n, fieldRange i = none → (∀ rule < 8, ∀ place < 7, i ≠ 100 * (rule + 1) + place ∨ place = 0) →
        applySetup own S i (.num n) = none) ∧
      (∀ d, i ≠ 5 → applySetup own S i (.dir d) = none) ∧
      (∀ k, i < 30 ∨ 33 < i → applySetup own S i (.cls k) = none))
/-! ## Trips and inputs -/

/-- R17, R18, R7, R9, R2, R79, R135, R142: the opening of the loop, a drive fault, an open limit, a lost DRIVE_READY, a
wake timeout and a brake-release timeout trip the axis at once from any state but TRIPPED: the condition is latched,
brake and drive are off at zero speed, the cue ends with it, the armed list is empty. So do OVERSPEED and ENCODER in a
period that raises them (R124, R138, R141, R143), OVERSPEED named first, ENCODER leaving the position UNREFERENCED. On
a TRIPPED axis, also one whose drive holds the load under BRAKE_SET, each of these is latched and turns the drive off, and
the sequencer and cue control stay as they are (R18, R21). A part that is not watched keeps the input only. The model's
readings: in a period the trip follows the generator's step (log 13), acts before its report, also at ENCODER (log 14),
and is acted on in ascending order of code, so that FOLLOWING is not latched once OVERSPEED has tripped the axis (log
37). -/
def Obligations.TripsStopAxis : Prop :=
  ∀ s : State, Settled s → s.held = none →
    let opened := s.onInp fun p => { p with loopOpen := true }
    let faulted := s.onInp fun p => { p with driveFault := true }
    let unready := s.onInp fun p => { p with driveReady := false }
    let tripped (c : Condition) (i : State) (t : State) : Prop :=
      TripEntered c i t ∧ DriveOff t ∧ TripFrame i t ∧ EndedByTrip c i t
    (s.seq.axis = .unaddressed → exec .estopLoopOpen s = .next opened ∧ exec .driveFaultAsserted s = .next faulted) ∧
    (s.seq.axis = .tripped → Answers (exec .estopLoopOpen s) fun t =>
      t.seq = s.seq ∧ DriveOff t ∧ t.sup.latched = insertCondition .estop s.sup.latched ∧
        t.sup.present = insertCondition .estop s.sup.present ∧ t.ctl = s.ctl ∧ t.line = s.line ∧
        TripFrame opened t) ∧
    (s.seq.axis = .tripped →
      let further (c : Condition) (i t : State) : Prop :=
        t.seq = s.seq ∧ DriveOff t ∧ t.sup.latched = insertCondition c s.sup.latched ∧ t.ctl = s.ctl ∧
          t.line = s.line ∧ t.peers = s.peers ∧ TripFrame i t
      (isPresent s .driveFault = false → Answers (exec .driveFaultAsserted s) (further .driveFault faulted)) ∧
      (∀ sw, isPresent s .ultimate = false →
        Answers (exec (.ultimateOpen sw) s) (further .ultimate (s.onInp (openLimit sw)))) ∧
      (driveEn s = true → s.sup.readySeen = true → isPresent s .driveReady = false →
        Answers (exec .driveReadyLost s) (further .driveReady unready)) ∧
      (Unreferencing s → s.ctl.ctx = none →
        let fast := 115 * speedLimit s < 100 * (periodDisplacement s).natAbs ∧ isPresent s .overspeed = false
        let jumps := s.store.live.encJump < (periodChange s).natAbs ∧ isPresent s .encoder = false
        fast ∨ jumps → Answers (exec .profilePeriod s) fun t =>
          t.seq = s.seq ∧ DriveOff t ∧ t.ctl = s.ctl ∧ (fast → isLatched t .overspeed = true) ∧
            (jumps → isLatched t .encoder = true) ∧
            t.meas.referenced =
              (if s.store.live.encJump < (periodChange s).natAbs then false else s.meas.referenced) ∧
            (∀ c, c ≠ .overspeed → c ≠ .encoder → isLatched t c = isLatched s c) ∧ base t = base s)) ∧
    (s.seq.axis ≠ .unaddressed → s.seq.axis ≠ .tripped →
      Answers (exec .estopLoopOpen s) (fun t =>
        TripEntered .estop opened t ∧ DriveOff t ∧ TripFrame opened t ∧
          ∀ x ∈ s.ctl.ctx, s.ctl.armed = [] → s.ctl.homing = none →
            t.ctl.lastEvent = some (.ended x.record.cue.number .estop (remainingMm s x))) ∧
      (isPresent s .driveFault = false →
        Answers (exec .driveFaultAsserted s) (tripped .driveFault faulted)) ∧
      (∀ sw, isPresent s .ultimate = false →
        Answers (exec (.ultimateOpen sw) s) (tripped .ultimate (s.onInp (openLimit sw)))) ∧
      (driveEn s = true → s.sup.readySeen = true → isPresent s .driveReady = false →
        Answers (exec .driveReadyLost s) (tripped .driveReady unready)) ∧
      (s.seq.axis = .waking → s.seq.wake.isSome = true →
        Answers (exec .wakeTimeout s) (tripped .driveReady s)) ∧
      (s.seq.axis = .releasing → s.seq.brake.isSome = true → isLatched s .brakeSet = false →
        Answers (exec .brakeReleaseTimeout s) (tripped .brakeRelease s))) ∧
    (driveEn s = false ∨ s.sup.readySeen = false → exec .driveReadyLost s = .next unready) ∧
    (Unreferencing s → s.seq.axis ≠ .unaddressed → s.seq.axis ≠ .tripped →
      let fast := 115 * speedLimit s < 100 * (periodDisplacement s).natAbs ∧ isPresent s .overspeed = false
      let jumps := s.store.live.encJump < (periodChange s).natAbs ∧ isPresent s .encoder = false
      let swept (c : Condition) (latched : List Condition) (t : State) : Prop :=
        t.seq.axis = .tripped ∧ t.seq.startReq = .none ∧ brakeRel t = false ∧ DriveOff t ∧ t.sup.latched = latched ∧
          t.ctl.ctx = none ∧ t.ctl.armed = [] ∧ t.ctl.homing = none ∧ t.meas.capture = .disarmed ∧
          enabling t.ctl = enabling s.ctl ∧ base t = base s ∧
          ∀ x ∈ s.ctl.ctx, x.endReason = none → s.ctl.armed = [] → s.ctl.homing = none →
            t.ctl.lastEvent = some (.ended x.record.cue.number (.fault c)
              (distance t.gen.s.toNat (x.record.cue.target * 1000000) / 1000000))
      (fast → (periodChange s).natAbs ≤ s.store.live.encJump → Answers (exec .profilePeriod s) fun t =>
        swept .overspeed (insertCondition .overspeed s.sup.latched) t ∧ t.meas.referenced = s.meas.referenced) ∧
      (fast → jumps → Answers (exec .profilePeriod s) fun t =>
        swept .overspeed (insertCondition .encoder (insertCondition .overspeed s.sup.latched)) t ∧
          t.meas.referenced = false) ∧
      (100 * (periodDisplacement s).natAbs ≤ 115 * speedLimit s → jumps → brakeRel s = false →
        Answers (exec .profilePeriod s) fun t =>
          swept .encoder (insertCondition .encoder s.sup.latched) t ∧ t.meas.referenced = false) ∧
      (jumps → Answers (exec .profilePeriod s) fun t => t.seq.axis = .tripped ∧ DriveOff t ∧
        isLatched t .encoder = true ∧ t.meas.referenced = false ∧ t.ctl.ctx = none ∧ t.ctl.armed = []))

/-- R122, R126, R134, R141: each change of an input is kept, and only what reads it changes: a closed loop, a removed
drive fault and closed limits make their condition absent and unlatch nothing; an active home-switch edge captures the
count, also where the switch was active before (log 41, DEDUCED); an encoder step counts by one, wrapping, both channels
together not at all (the pins move by log 40, the model's choice); a PWM boundary takes the pending duty. -/
def Obligations.InputsChangeWhatReadsThem : Prop :=
  ∀ s : State, Settled s → s.held = none →
    let absent (c : Condition) (i t : State) : Prop :=
      t.sup.present = removeCondition c s.sup.present ∧ t.sup.latched = s.sup.latched ∧ t.seq = s.seq ∧
        t.ctl = s.ctl ∧ t.gen = s.gen ∧ t.meas = s.meas ∧ t.peers = s.peers ∧ t.guard = s.guard ∧ t.line = s.line ∧
        base t = base i
    (Answers (exec .estopLoopClosed s) (absent .estop (s.onInp fun p => { p with loopOpen := false }))) ∧
    (s.seq.axis ≠ .unaddressed →
      Answers (exec .driveFaultDeasserted s) (absent .driveFault (s.onInp fun p => { p with driveFault := false })) ∧
      Answers (exec .ultimateClosed s)
        (absent .ultimate (s.onInp fun p => { p with ultUpOpen := false, ultDownOpen := false }))) ∧
    (exec (.homeSwEdge false) s = .next (s.onInp fun p => { p with homeSw := false })) ∧
    (Answers (exec (.homeSwEdge true) s) fun t =>
      t.meas.capture = (if s.meas.capture = .disarmed then .disarmed else .held s.meas.count) ∧
        { t with inp := s.inp, meas := s.meas } = s ∧ t.inp = { s.inp with homeSw := true } ∧
        { t.meas with capture := s.meas.capture } = s.meas) ∧
    (∀ step, Answers (exec (.encoderStep step) s) fun t =>
      t.meas.count = (match step with
        | .aLeads => s.meas.count + 1
        | .bLeads => s.meas.count - 1
        | .both => s.meas.count) ∧
      t.inp = pinStep step s.inp ∧ { t with inp := s.inp, meas := s.meas } = s ∧
      { t.meas with count := s.meas.count } = s.meas) ∧
    (exec .pwmBoundary s = .next (s.onMeas fun m => { m with activeDuty := s.meas.pendingDuty }))

/-- R7, R142: DRIVE_READY found asserted completes a wake by its start request: NONE parks the axis, RECOVER takes it
to RECOVERING, CUE and HOME begin the release; the ready-seen flag is set. Outside WAKING only the input and, with the
drive on, the flag change. -/
def Obligations.DriveReadyCompletesWake : Prop :=
  ∀ s : State, Settled s →
    let ready := s.onInp fun p => { p with driveReady := true }
    (s.seq.axis ≠ .waking → exec .driveReadyAsserted s = .next
      (ready.onSup fun p => { p with readySeen := driveEn s || p.readySeen })) ∧
    (s.seq.axis = .waking → s.inp.loopOpen = false →
      let kept (t : State) : Prop :=
        t.seq.startReq = .none ∧ t.seq.wake = none ∧ t.sup.readySeen = true ∧ t.sup.latched = s.sup.latched ∧
          t.ctl = s.ctl ∧ t.peers = s.peers ∧ t.guard = s.guard ∧ base t = base ready ∧ still t = still s ∧
          path t.gen = path s.gen
      (s.seq.startReq = .none → Answers (exec .driveReadyAsserted s) fun t => t.seq.axis = .parked ∧ kept t ∧
        (s.ctl.armed = [] → s.ctl.ctx = none → s.store.live.restCount ≠ 0 →
          t.seq.rest = some (s.store.live.restCount * 5000)) ∧
        (s.ctl.armed ≠ [] ∨ s.ctl.ctx ≠ none ∨ s.store.live.restCount = 0 → t.seq.rest = none)) ∧
      (s.seq.startReq = .recover → Answers (exec .driveReadyAsserted s) fun t => t.seq.axis = .recovering ∧ kept t) ∧
      (s.seq.startReq = .home ∨ s.seq.startReq = .cue → (∀ x ∈ s.ctl.ctx, x.move = none) →
        s.inp.brakeReleased = false → (∀ d ∈ s.sup.present, classOf s d ≠ .recover) →
        Answers (exec .driveReadyAsserted s) fun t =>
          t.seq.axis = .releasing ∧ t.seq.startReq = s.seq.startReq ∧ t.seq.wake = none ∧
          t.seq.brake = some s.store.live.brakeTime ∧ brakeRel t = true ∧ driveEn t = true ∧ t.sup.readySeen = true ∧
          t.gen.s = s.meas.measured ∧ t.gen.v = 0 ∧ t.gen.progress = s.gen.progress ∧ t.ctl = s.ctl ∧
          t.peers = s.peers ∧ t.guard = s.guard ∧ base t = base ready ∧ still t = still s))

/-- R9, R25, R37, R41, R70, R71, R103: BRAKE_FB read released completes a release. A STARTING cue has its move fixed from
the measured position (start, target, direction, distance, Vmax as the lesser of record and axis maximum, A, D) and
becomes RUNNING on a MOVING axis; marks passed by the retake fire in the direction just fixed (log 18, the model's
reading). Where a member breaks the group, it is stopped CONTROLLED toward PARKED, ENDING GROUP_BROKEN, by the path of
MOVING (log 17, the model's reading). A RUNNING cue goes on in MOVING with its move and set-point; a homing request enters
HOMING with the capture armed. On an axis not RELEASING only the input changes; that this is so too in TRIPPED, where
BRAKE_SET has become absent, is log 46 (DEDUCED), the model's reading. -/
def Obligations.ReleaseStartsMotion : Prop :=
  ∀ s : State, Settled s →
    let freed := s.onInp fun p => { p with brakeReleased := true }
    (s.seq.axis ≠ .releasing → exec .brakeFbReleased s = .next freed) ∧
    (s.seq.axis = .releasing →
      let kept (t : State) : Prop :=
        t.seq.startReq = .none ∧ t.seq.brake = none ∧ brakeRel t = true ∧ t.sup.latched = s.sup.latched ∧
          t.peers = s.peers ∧ t.gen.v = 0 ∧ t.gen.progress = s.gen.progress ∧ base t = base freed ∧ still t = still s
      (∀ x, s.ctl.ctx = some x → x.phase = .starting →
        let m := fixMove s.store.live x.record.cue s.meas.measured.toNat
        let fixed (y : CueContext) (t : State) : Prop :=
          kept t ∧ t.ctl = { s.ctl with ctx := some { y with move := some m, holdTime := 0 } } ∧
          m.s0 = s.meas.measured.toNat ∧ m.target = x.record.cue.target * 1000000 ∧
          (m.dir = .up ↔ m.s0 < m.target) ∧ (m.total : Int) = ((m.target : Int) - m.s0).natAbs ∧
          m.vmax = min x.record.cue.vmax s.store.live.axisVmax * 1000 ∧ m.accel = x.record.cue.accel ∧
          m.decel = x.record.cue.decel ∧ t.gen.s = s.meas.measured ∧ t.guard = s.guard ∧
          t.gen.fired = joinFired s.gen.fired (firedAt s x m s.meas.measured) ∧
          t.line.marks = ((firedAt s x m s.meas.measured).foldl (queueMark x.record.cue.number) s).line.marks
        ((∀ v ∈ x.views, ∀ c, memberContents s.peers v.1 = some c → breaksGroup x.record.cue.number c v.2 = false) →
          Answers (exec .brakeFbReleased s) fun t => fixed { x with phase := .running } t ∧ t.seq.axis = .moving) ∧
        (∀ v ∈ x.views, ∀ c, (x.views.map (·.1)).Nodup → memberContents s.peers v.1 = some c →
          breaksGroup x.record.cue.number c v.2 = true → Answers (exec .brakeFbReleased s) fun t =>
            fixed { x with phase := .ending, endReason := some .groupBroken } t ∧ t.seq.axis = .stopping ∧
              t.seq.stopKind = .controlled ∧ t.seq.dest = .parked)) ∧
      (∀ x, s.ctl.ctx = some x → x.phase ≠ .starting → s.gen.v = 0 →
        Answers (exec .brakeFbReleased s) fun t => kept t ∧ t.seq.axis = .moving ∧
          t.ctl = { s.ctl with ctx := some { x with holdTime := 0 } } ∧ t.gen.s = s.gen.s ∧ t.guard = s.guard ∧
          t.line.marks = s.line.marks) ∧
      (s.ctl.ctx = none → s.seq.startReq = .home → s.gen.v = 0 →
        Answers (exec .brakeFbReleased s) fun t => kept t ∧ t.seq.axis = .homing ∧ t.meas.capture = .armed ∧
          t.guard = { s.guard with notice := false } ∧ t.gen.s = s.gen.s ∧ t.ctl.ctx = none ∧
          t.gen.homing = some
            { dir := s.store.live.homeDir, h0 := s.gen.s.toNat, vmax := s.store.live.homeSpeed * 1000
              accel := s.store.live.homeAccel, travel := s.store.live.homeTravel * 1000000, phase := .search } ∧
          t.line.marks = s.line.marks))

/-- R16, R141, R79, R2: BRAKE_FB read set makes BRAKE_SET absent, and in SETTING the axis enters its destination: PARKED,
SUSPENDED or RECOVERING with the duty at 2048 and the cue kept, or TRIPPED with no cue and nothing armed, the drive off
and the duty at 2048 where BRAKE_SET is not latched. Outside SETTING nothing else changes. -/
def Obligations.BrakeSetEntersDestination : Prop :=
  ∀ s : State, Settled s →
    let setIn := s.onInp fun p => { p with brakeReleased := false }
    (s.seq.axis ≠ .setting → Answers (exec .brakeFbSet s) fun t =>
      t.sup.present = removeCondition .brakeSet s.sup.present ∧ t.sup.latched = s.sup.latched ∧ t.seq = s.seq ∧
        t.ctl = s.ctl ∧ t.gen = s.gen ∧ t.meas = s.meas ∧ t.peers = s.peers ∧ t.guard = s.guard ∧ t.line = s.line ∧
        base t = base setIn) ∧
    (∀ d a, (d, a) ∈ [(SetDest.parked, AxisState.parked), (.suspended, .suspended), (.recovering, .recovering)] →
      s.seq.axis = .setting → s.seq.dest = d → Answers (exec .brakeFbSet s) fun t =>
        t.seq.axis = a ∧ t.seq.brake = none ∧ brakeRel t = false ∧ t.meas.pendingDuty = 2048 ∧
        t.meas.activeDuty = 2048 ∧ t.ctl = s.ctl ∧ t.sup.latched = s.sup.latched ∧ isPresent t .brakeSet = false ∧
        t.peers = s.peers ∧ t.guard = s.guard ∧ base t = base setIn ∧ still t = still s ∧ path t.gen = path s.gen) ∧
    (s.seq.axis = .setting → s.seq.dest = .tripped → Answers (exec .brakeFbSet s) fun t =>
      t.seq.axis = .tripped ∧ t.ctl.ctx = none ∧ t.ctl.armed = [] ∧ t.ctl.homing = none ∧ brakeRel t = false ∧
        t.sup.latched = s.sup.latched ∧ (isLatched s .brakeSet = false → DriveOff t) ∧ base t = base setIn ∧
        still t = still s ∧ path t.gen = path s.gen ∧ t.guard = s.guard)

/-! ## The load -/

/-- R131, R132, R140, R149: the conversion in flight is taken; with none in flight the command changes nothing (log 2, the
model's reading). A rail value raises the invalid run, at most 4, and leaves window and mean; a valid one ends the run
and joins the window of the latest four, whose truncated mean is the filtered load. Near the target of a landing cue, a
load below the slack limit ends the cue LANDED. R19, R143 to R145, R148: a condition that occurs alone is noted, latched
with the FAST demand of its axis state, or begins one of the cue's three recoveries; a fourth is latched, one within a
recovery joins it. -/
def Obligations.LoadConversionFiltered : Prop :=
  ∀ (s : State) (raw : BitVec 12), Settled s → s.held = none → s.seq.axis ≠ .unaddressed →
    let load : Int := ((raw.toNat : Int) - s.store.live.loadZero) * s.store.live.loadScale
    let window := s.meas.window.drop (s.meas.window.length - 3) ++ [load]
    (s.meas.converting = false → exec (.loadConversionComplete raw) s = .next s) ∧
    (s.meas.converting = true →
      (raw = 0 ∨ raw = 4095 → Answers (exec (.loadConversionComplete raw) s) fun t =>
        t.meas.converting = false ∧ t.meas.invalidRun = min (s.meas.invalidRun + 1) 4 ∧
        t.meas.window = s.meas.window ∧ t.meas.filtered = s.meas.filtered ∧ base t = base s) ∧
      (raw ≠ 0 → raw ≠ 4095 → s.meas.window.length ≤ 4 → Answers (exec (.loadConversionComplete raw) s) fun t =>
        t.meas.converting = false ∧ t.meas.invalidRun = 0 ∧ t.meas.window = window ∧
        t.meas.filtered = some (Int.tdiv window.sum window.length) ∧ base t = base s ∧
        t.meas.count = s.meas.count ∧ t.meas.measured = s.meas.measured ∧ t.meas.offset = s.meas.offset ∧
        enabling t.ctl = enabling s.ctl ∧ bounds t.guard = bounds s.guard) ∧
      (∀ x, s.ctl.ctx = some x → x.phase = .running → x.record.cue.landing = true → s.seq.axis = .moving →
        distance s.gen.s.toNat (x.record.cue.target * 1000000) ≤ s.store.live.landingBand * 1000000 →
        raw ≠ 0 → raw ≠ 4095 → s.meas.window.length ≤ 4 → s.store.live.clsSlack ≠ .off →
        Int.tdiv window.sum window.length < s.store.live.slack →
        Int.tdiv window.sum window.length ≤ s.store.live.overload →
        Answers (exec (.loadConversionComplete raw) s) fun t =>
          t.seq.axis = .stopping ∧ t.seq.stopKind = .controlled ∧ t.seq.dest = .parked ∧
          t.ctl = { s.ctl with ctx := some { x with phase := .ending, endReason := some .landed } } ∧
          t.sup.latched = s.sup.latched ∧ t.peers = s.peers ∧ t.guard = s.guard ∧ path t.gen = path s.gen ∧
          base t = base s) ∧
      (∀ c ∈ [Condition.overload, .slack, .loadSensor], isPresent s c = false → s.meas.window.length ≤ 4 →
        let live := s.store.live
        let mean := Int.tdiv window.sum window.length
        let lands (x : CueContext) := x.phase = .running ∧ x.record.cue.landing = true ∧
          distance s.gen.s.toNat (x.record.cue.target * 1000000) ≤ live.landingBand * 1000000
        let alone : Prop :=
          match c with
          | .overload => raw ≠ 0 ∧ raw ≠ 4095 ∧ live.overload < mean ∧ (live.clsSlack = .off ∨ live.slack ≤ mean)
          | .slack => raw ≠ 0 ∧ raw ≠ 4095 ∧ mean < live.slack ∧ mean ≤ live.overload ∧ s.seq.axis = .moving ∧
            live.clsSlack ≠ .off ∧ ∀ x ∈ s.ctl.ctx, ¬lands x
          | _ => (raw = 0 ∨ raw = 4095) ∧ 3 ≤ s.meas.invalidRun ∧
            ∀ l ∈ s.meas.filtered, live.slack ≤ l ∧ l ≤ live.overload
        alone →
        let latched (t : State) : Prop :=
          (t.seq.axis, t.seq.stopKind, t.seq.dest) = latchRow s.seq ∧
            t.sup.latched = insertCondition c s.sup.latched ∧
            (t.seq.axis ≠ .tripped → t.ctl = { s.ctl with ctx := s.ctl.ctx.map (faultedContext c) }) ∧
            (t.seq.axis = .tripped → s.seq.axis ≠ .tripped → t.ctl.ctx = none ∧ t.ctl.armed = [])
        let recovers (t : State) : Prop :=
          (t.seq.axis, t.seq.stopKind, t.seq.dest, t.seq.startReq) = recoverRow s.seq ∧
            t.sup.latched = s.sup.latched ∧ t.ctl.armed = s.ctl.armed
        (classOf s c = .note → Answers (exec (.loadConversionComplete raw) s) fun t =>
          t.seq = s.seq ∧ t.ctl = s.ctl ∧ t.sup.latched = s.sup.latched ∧ isPresent t c = true ∧ t.gen = s.gen) ∧
        (s.inp.brakeReleased = true →
          (classOf s c = .latch → Answers (exec (.loadConversionComplete raw) s) latched) ∧
          (classOf s c = .recover →
            (s.ctl.ctx = none → Answers (exec (.loadConversionComplete raw) s) fun t =>
              (t.seq.axis, t.seq.stopKind, t.seq.dest) = idleRow s.seq ∧ t.sup.latched = s.sup.latched ∧
                isPresent t c = true ∧ t.ctl.armed = s.ctl.armed ∧
                (s.seq.axis = .homing → t.ctl.homing = s.ctl.homing.map fun r => { r with aborted := true }) ∧
                (s.seq.axis = .releasing → ∀ r ∈ s.ctl.homing,
                  t.ctl.homing = none ∧ t.ctl.lastEvent = some (.homingEnded .homeAborted))) ∧
            (∀ x ∈ s.ctl.ctx,
              (s.sup.recovery = none → beginsRecovery s = true →
                (x.recoveries < 3 → Answers (exec (.loadConversionComplete raw) s) fun t => recovers t ∧
                  t.sup.recovery = some { conds := [c], dwell := none, wait := 0 } ∧
                  t.ctl.ctx = some { x with recoveries := x.recoveries + 1 }) ∧
                (3 ≤ x.recoveries → Answers (exec (.loadConversionComplete raw) s) latched)) ∧
              (s.sup.recovery = none → beginsRecovery s = false →
                Answers (exec (.loadConversionComplete raw) s) fun t => recovers t ∧ t.ctl.ctx = some x ∧
                  t.sup.recovery = none) ∧
              (∀ r ∈ s.sup.recovery, Answers (exec (.loadConversionComplete raw) s) fun t => recovers t ∧
                t.ctl.ctx = some x ∧ t.sup.recovery.map (·.conds) = some (insertCondition c r.conds) ∧
                t.sup.recovery.map (·.wait) = some r.wait))))))

/-! ## The profile period -/

/-- R22, R24, R44, R110, R123, R130: in a period with no capture held and neither speed condition, at rest (REST, WAKING,
PARKED, TRIPPED with the drive off), the count is latched and its three values formed, a conversion starts, the guard is
computed for the set-point as the period finds it (the order of log 13, DEDUCED), and the set-point follows the measured
position at velocity 0, stop point and published values with it, duty 2048. In HOLD (RELEASING, SETTING, RECOVERING,
TRIPPED with the drive on) the set-point stays, and the duty is the position loop's, in RECOVERING 2048. -/
def Obligations.PeriodTracksAtRest : Prop :=
  ∀ s : State, Settled s → Unreferencing s → s.gen.homing = none → CalmUnder (speedLimit s) s →
    let rested (t : State) (point : Position) (duty : Nat) : Prop :=
      PeriodTaken s t ∧
        t.meas = { s.meas with
          latched := some s.meas.count
          measured := periodMeasured s
          change := periodChange s
          displacement := periodDisplacement s
          converting := true
          pendingDuty := duty } ∧
        t.gen.s = point ∧ t.gen.v = 0 ∧ t.gen.stopPoint = point ∧
        t.gen.pub = ⟨point.toNat / 1000, 0, point.toNat / 1000⟩ ∧ t.seq = s.seq ∧ t.ctl = s.ctl ∧
        t.sup.latched = s.sup.latched ∧ t.peers = s.peers ∧ base t = base s
    (s.seq.axis ∈ [AxisState.rest, .waking, .parked] ∨ (s.seq.axis = .tripped ∧ driveEn s = false) →
      Answers (exec .profilePeriod s) fun t => rested t (periodMeasured s) 2048) ∧
    (s.inp.loopOpen = false →
      s.seq.axis ∈ [AxisState.releasing, .setting, .recovering] ∨ (s.seq.axis = .tripped ∧ driveEn s = true) →
      (s.seq.axis = .releasing → FollowsWithin s s.gen.s (periodMeasured s)) →
      Answers (exec .profilePeriod s) fun t => rested t s.gen.s
        (if s.seq.axis = .recovering then 2048 else loopDuty s 0 s.gen.s (periodMeasured s)))

/-- R10, R13, R22, R26 to R34, R39 to R43, R77, R114: in a period of a RUNNING cue on a MOVING or HELD axis, with no
capture held, no speed condition and the following error within its limit, the velocity target is the least of the
scaled limit, the pacing velocity and the stop demand's; the step is that of `runPeriod` within target and the envelope
computed in the same period (the order of log 13, DEDUCED); progress, stop point, published values, marks and the
position loop's duty follow. The axis is MOVING at a velocity above 0 and HELD at 0; at the target the cue ends ARRIVED,
PENDING follow cues take their full delay, and the brake is set. R19, R36: a FAST stop falls by E and sets the brake at
velocity 0. R139, R143, R145: an error above the limit is FOLLOWING, a FAST demand of its class, which acts before the
report of the same period, also where that period arrives or comes to velocity 0 (log 14, the model's reading). -/
def Obligations.PeriodRunsMove : Prop :=
  ∀ (s : State) (x : CueContext) (m : MoveInputs), Settled s → Unreferencing s → s.ctl.ctx = some x →
    x.move = some m → s.gen.homing = none → s.inp.loopOpen = false → CalmUnder m.vmax s →
    let live := s.store.live
    let measured := periodMeasured s
    let p := periodStep s m (periodTarget s x m false)
    let point := steppedPoint m s.gen.s p
    let slowed := fastPeriod s.gen.v live.emergency (remainingTo m s.gen.s)
    let fastPoint := steppedPoint m s.gen.s slowed
    let fired (t : State) (at' : Position) : Prop := t.gen.fired = joinFired s.gen.fired (firedAt s x m at')
    let ran (t : State) : Prop :=
      PeriodTaken s t ∧ MovedTo s t x m point p.v m.decel ∧ t.sup.latched = s.sup.latched ∧
        t.meas.pendingDuty = loopDuty s (signedVelocity m.dir p.v) point measured ∧ base t = base s
    (s.seq.axis = .moving ∨ s.seq.axis = .held → x.phase = .running → FollowsWithin s point measured →
      (p.arrived = false → p.v ≠ 0 → Answers (exec .profilePeriod s) fun t => ran t ∧ fired t point ∧
        t.seq.axis = .moving ∧ (s.seq.axis = .moving → t.seq = s.seq) ∧ t.peers = s.peers ∧
        t.ctl = { s.ctl with
          ctx := some { pacedContext s x with holdTime := if s.seq.axis = .moving then x.holdTime else 0 } }) ∧
      (p.arrived = false → p.v = 0 → Answers (exec .profilePeriod s) fun t => ran t ∧ fired t point ∧
        t.seq.axis = .held ∧ (s.seq.axis = .moving → t.seq.hold = some (live.holdToBrake * 1000)) ∧
        (s.seq.axis = .held → t.seq = s.seq) ∧ t.ctl = { s.ctl with ctx := some (pacedContext s x) } ∧
        t.peers = s.peers) ∧
      (p.arrived = true → (∀ a ∈ s.ctl.armed, a.trigger ≠ some (.delaying 0)) →
        (∀ a ∈ s.ctl.armed, a.trigger = some .pending → delayOf s a.cue ≠ 0) →
        s.inp.brakeReleased = true → Answers (exec .profilePeriod s) fun t => ran t ∧
          t.seq.axis = .setting ∧ t.seq.dest = .parked ∧ t.seq.brake = some live.brakeTime ∧ brakeRel t = false ∧
          t.gen.fired = [] ∧
          t.ctl = { s.ctl with
            ctx := none
            armed := s.ctl.armed.map fun a =>
              if a.trigger = some .pending then { a with trigger := some (.delaying (delayOf s a.cue)) } else a
            lastEvent := some (.ended x.record.cue.number .arrived
              (distance point.toNat (mmToNm x.record.cue.target) / 1000000)) } ∧
          t.peers = releasePeers x.record.cue.number s.peers)) ∧
    (s.seq.axis = .stopping → s.seq.stopKind = .fast → x.phase ≠ .starting → FollowsWithin s fastPoint measured →
      let braked (t : State) : Prop :=
        PeriodTaken s t ∧ MovedTo s t x m fastPoint slowed.v live.emergency ∧ fired t fastPoint ∧
          t.sup.latched = s.sup.latched ∧ t.ctl = s.ctl ∧ t.peers = s.peers ∧ base t = base s
      slowed.v ≤ s.gen.v - live.emergency ∧
      (slowed.v ≠ 0 → Answers (exec .profilePeriod s) fun t => braked t ∧ t.seq = s.seq) ∧
      (slowed.v = 0 → s.inp.brakeReleased = true → s.seq.dest = .tripped ∨ x.phase = .running →
        Answers (exec .profilePeriod s) fun t => braked t ∧ t.seq.axis = .setting ∧ t.seq.dest = s.seq.dest ∧
          t.seq.brake = some live.brakeTime ∧ brakeRel t = false)) ∧
    (s.seq.axis = .moving → x.phase = .running → ¬FollowsWithin s point measured → isPresent s .following = false →
      let strayed (t : State) : Prop :=
        PeriodTaken s t ∧ MovedTo s t x m point p.v m.decel ∧ isPresent t .following = true ∧
          t.seq.axis = .stopping ∧ t.seq.stopKind = .fast ∧ t.peers = s.peers ∧ base t = base s
      (live.clsFollowing = .latch → Answers (exec .profilePeriod s) fun t => strayed t ∧ t.seq.dest = .tripped ∧
        t.sup.latched = insertCondition .following s.sup.latched ∧
        t.ctl = { s.ctl with ctx := some (faultedContext .following (pacedContext s x)) }) ∧
      (live.clsFollowing = .recover → s.sup.recovery = none → x.recoveries < 3 →
        Answers (exec .profilePeriod s) fun t => strayed t ∧ t.seq.dest = .recovering ∧
          t.sup.latched = s.sup.latched ∧
          t.sup.recovery = some { conds := [.following], dwell := none, wait := 0 } ∧
          t.ctl = { s.ctl with
            ctx := some { pacedContext s x with recoveries := x.recoveries + 1 } }))

/-! ## Time -/

/-- R89, R90, R102: each heard entry ages by one, at most to 65535, and its freshness follows from the age and the two
limits. A running member newly LOST whose view is not FINISHED ends a moving cue PEER_LOST by a controlled stop; with
no member lost nothing else changes. -/
def Obligations.AgeingMakesLost : Prop :=
  ∀ s : State, Settled s → s.held = none →
    (∀ p ∈ s.peers, p.fresh ≠ .unheard →
      let q := agePeer s.store.live p
      q.age = min (p.age + 1) 65535 ∧ (q.fresh = .lost ↔ s.store.live.lostLimit < q.age) ∧
        (q.fresh = .stale ↔ q.age ≤ s.store.live.lostLimit ∧ s.store.live.staleLimit < q.age) ∧
        { q with age := p.age, fresh := p.fresh } = p) ∧
    (∀ p ∈ s.peers, p.fresh = .unheard → agePeer s.store.live p = p) ∧
    ((∀ n ∈ newlyLost s.store.live s.peers, ∀ x ∈ s.ctl.ctx, ∀ v ∈ x.views, v.1 = n → v.2 = .finished) →
      exec .peerAgeing s = .next { s with peers := s.peers.map (agePeer s.store.live) }) ∧
    (∀ x n v, s.ctl.ctx = some x → x.phase = .running → s.seq.axis = .moving →
      n ∈ newlyLost s.store.live s.peers → viewOf x n = some v → v ≠ .finished →
      Answers (exec .peerAgeing s) fun t =>
        t.seq.axis = .stopping ∧ t.seq.stopKind = .controlled ∧ t.seq.dest = .parked ∧
        t.ctl = { s.ctl with ctx := some { x with phase := .ending, endReason := some .peerLost } } ∧
        t.peers = s.peers.map (agePeer s.store.live) ∧ t.guard = s.guard ∧ base t = base s ∧ still t = still s ∧
        path t.gen = path s.gen)

/-- R5, R11, R16: the hold-to-brake timer in HELD sets the brake toward SUSPENDED; the rest timer in PARKED turns the
drive off in REST; the brake timer in SETTING trips the axis with BRAKE_SET latched and, with the loop closed and no
ESTOP or DROP condition latched, the drive holding. That BRAKE_SET is present while the brake reads released is the
model's reading (log 42). -/
def Obligations.SequencerTimersExpire : Prop :=
  ∀ s : State, Settled s →
    (s.seq.axis = .held → s.seq.hold.isSome = true → s.inp.brakeReleased = true →
      Answers (exec .holdToBrakeExpiry s) fun t =>
        t.seq.axis = .setting ∧ t.seq.dest = .suspended ∧ t.seq.brake = some s.store.live.brakeTime ∧
        t.seq.hold = none ∧ brakeRel t = false ∧ t.ctl = s.ctl ∧ t.sup.latched = s.sup.latched ∧ t.peers = s.peers ∧
        t.guard = s.guard ∧ base t = base s ∧ still t = still s ∧ path t.gen = path s.gen) ∧
    (s.seq.axis = .parked → s.seq.rest.isSome = true →
      Answers (exec .restTimerExpiry s) fun t =>
        t.seq.axis = .rest ∧ t.seq.rest = none ∧ DriveOff t ∧ t.ctl = s.ctl ∧ t.sup.latched = s.sup.latched ∧
        t.peers = s.peers ∧ t.guard = s.guard ∧ base t = base s ∧ still t = still s ∧ path t.gen = path s.gen) ∧
    (s.seq.axis = .setting → s.seq.brake.isSome = true →
      Answers (exec .brakeSetTimeout s) fun t =>
        TripEntered .brakeSet s t ∧ TripFrame s t ∧ EndedByTrip .brakeSet s t ∧
        isPresent t .brakeSet = (s.inp.brakeReleased || isPresent s .brakeSet) ∧
        (s.inp.loopOpen = false → isLatched s .estop = false → s.sup.latched.any Condition.isDrop = false →
          driveEn t = true))

/-! ## The port -/

/-- R153 to R163, R172: the status timer builds a STATUS of the present fields that keeps the attempt count of the one it
replaces. An attempt takes the oldest MARK, else the STATUS, else the oldest REPLY or CUEREPORT, else the ANNOUNCE, with
the next sequence count at its first attempt and the header of its kind. A frame sent leaves its store; a failed attempt
raises its count and draws the backoff, the eighth drops it, a MARK's drop setting MARK_LOST. A frame of a slot replaced
while it is on the line: log 29, the model's choice; an expiry, an end of an attempt or an attempt with nothing to act on
changes nothing: log 2 (DEDUCED). Received bytes that pass check and filter act as the frame they spell; others have no
effect: that FRAME_DISCARDED so hands bytes on, and the layouts the spec does not table, are log 11 (DESIGN CHOICE), and
that a payload length above 88 fails the check is log 56. The model's too: an attempt begins whatever backoff remains (log
30, timing), an UNADDRESSED part builds no STATUS (log 31), and the values a STATUS reports between two periods (log
35). -/
def Obligations.PortSendsFrames : Prop :=
  ∀ s : State,
    let l := s.line
    let on (l' : LinePort) : Host.Outcome State Fault Refusal := .next { s with line := l' }
    (addressed s = false ∨ l.timer = none → exec .statusTimerExpiry s = .next s) ∧
    (addressed s = true → l.timer.isSome = true → exec .statusTimerExpiry s = .next { s with
      gen := { s.gen with overrun := false }
      line := { l with
        status := some ⟨(l.status.map (·.attempts)).getD 0, none, statusOf s⟩
        timer := some s.store.live.statusInterval
        attempt := l.attempt.map fun a => if a.store = .status then { a with superseded := true } else a } }) ∧
    (addressed s = false ∨ l.attempt.isSome = true → exec .transmitAttempt s = .next s) ∧
    (addressed s = true → l.attempt = none →
      (∀ m rest, l.marks = m :: rest → exec .transmitAttempt s =
        on { attempting l .mark (.mark m.body) m with marks := counted l m :: rest }) ∧
      (∀ f, l.marks = [] → l.status = some f → exec .transmitAttempt s =
        on { attempting l .status (.status f.body) f with status := some (counted l f) }) ∧
      (∀ l₁ f l₂, l.marks = [] → l.status = none → l.replies = l₁ ++ f :: l₂ → sendable f.body = true →
        (∀ q ∈ l₁, sendable q.body = false) → exec .transmitAttempt s =
          on { attempting l (.reply l₁.length) (.reply f.body) f with replies := l₁ ++ counted l f :: l₂ }) ∧
      (l.marks = [] → l.status = none → (∀ q ∈ l.replies, sendable q.body = false) →
        (∀ f, l.announce = some f → exec .transmitAttempt s =
          on { attempting l .announce (.announce f.body) f with announce := some (counted l f) }) ∧
        (l.announce = none → exec .transmitAttempt s = .next s))) ∧
    (l.attempt = none → exec .frameSent s = .next s ∧ exec .attemptFailed s = .next s) ∧
    (∀ a, l.attempt = some a →
      let ended (l' : LinePort) : LinePort := { l' with attempt := none }
      let failed (l' : LinePort) : LinePort :=
        { l' with attempt := none, backoff := some (4 * s.station + 256 * a.attempts) }
      lineHeader s = (match a.body with
        | .status _ => some ⟨1, s.station, 0, a.seq⟩
        | .mark _ => some ⟨2, s.station, 0, a.seq⟩
        | .announce _ => some ⟨3, s.station, 0, a.seq⟩
        | .reply (.reply r) => some ⟨4, s.station, r.addressee, a.seq⟩
        | .reply (.report r) => some ⟨5, s.station, r.addressee, a.seq⟩
        | .reply (.reservation _ _ _) => none) ∧
      (∀ m rest, a.store = .mark → l.marks = m :: rest →
        exec .frameSent s = on (ended { l with marks := rest }) ∧
        (a.attempts < 7 → exec .attemptFailed s =
          on (failed { l with marks := { m with attempts := a.attempts + 1 } :: rest })) ∧
        (7 ≤ a.attempts → exec .attemptFailed s = on (failed { l with marks := rest, markLost := true }))) ∧
      (a.store = .status →
        let newer := if a.superseded then l.status.map fun f => { f with attempts := 0 } else none
        exec .frameSent s = on (ended { l with status := newer }) ∧
        (a.attempts < 7 → exec .attemptFailed s =
          on (failed { l with status := l.status.map fun f => { f with attempts := a.attempts + 1 } })) ∧
        (7 ≤ a.attempts → exec .attemptFailed s = on (failed { l with status := newer }))) ∧
      (∀ l₁ f l₂, a.store = .reply l₁.length → l.replies = l₁ ++ f :: l₂ →
        exec .frameSent s = on (ended { l with replies := l₁ ++ l₂ }) ∧
        (a.attempts < 7 → exec .attemptFailed s =
          on (failed { l with replies := l₁ ++ { f with attempts := a.attempts + 1 } :: l₂ })) ∧
        (7 ≤ a.attempts → exec .attemptFailed s = on (failed { l with replies := l₁ ++ l₂ }))) ∧
      (a.store = .announce →
        let newer := if a.superseded then l.announce.map fun f => { f with attempts := 0 } else none
        exec .frameSent s = on (ended { l with announce := newer }) ∧
        (a.attempts < 7 → exec .attemptFailed s = on (failed { l with
          announce :=
            if a.superseded then l.announce else l.announce.map fun f => { f with attempts := a.attempts + 1 } })) ∧
        (7 ≤ a.attempts → exec .attemptFailed s = on (failed { l with announce := newer })))) ∧
    (∀ raw,
      (addressed s = false ∨ checkPasses raw = false → exec (.frameDiscarded raw) s = .next s) ∧
      (receivedFrame s raw = none → exec (.frameDiscarded raw) s = .next s) ∧
      (∀ i, receivedFrame s raw = some i → exec (.frameDiscarded raw) s = exec i s)) ∧
    (∀ kind side sender addressee seq payload, addressed s = true → kindSide kind = some side → sender < 64 →
      (sender < 48 ↔ side = .axis) → sender ≠ 0 → addressee < 64 → addressee = 0 ∨ addressee = s.station →
      payload.length ≤ 88 → (∀ n ∈ tabledLength kind, payload.length = n) → kind ∉ [3, 4, 5] →
      exec (.frameDiscarded (wireFrame kind sender addressee seq payload)) s =
        match readFrame kind ⟨sender, addressee, seq⟩ payload with
        | none => .next s
        | some i => exec i s)

/-- R165, R83, R88: the payload of a STATUS built from fields within the ranges of R165 is read back by a peer as the
fields it keeps: axis state, cue number and phase, progress, the three positions and the armed pairs. -/
def Obligations.StatusReadBackByPeer : Prop :=
  ∀ st : Status, st.axis ≠ .unaddressed → st.cue ≤ 999 → (st.phase = none ↔ st.cue = 0) → st.progress ≤ 4096 →
    st.setPoint < 4294967296 → st.measured < 4294967296 → st.stopPoint < 4294967296 → st.armed.length ≤ 4 →
    (∀ p ∈ st.armed, p.1 < 65536) → st.faults.length ≤ 14 →
    parseStatus (statusPayload st) = some
      { axis := st.axis, cue := st.cue, phase := st.phase, progress := st.progress, setPoint := st.setPoint
        measured := st.measured, stopPoint := st.stopPoint, armed := st.armed }
end

