-- ==== Sys2Proof/Laws/State.lean ====
section
/-! SUPPORT. What each block update changes: the block itself and nothing else, one lemma per field. -/

namespace Sys2Proof.Machine

section onInp
variable (s : State) (f : Inputs → Inputs)
@[simp] theorem onInp_pending : (s.onInp f).pending = s.pending := rfl
@[simp] theorem onInp_held : (s.onInp f).held = s.held := rfl
@[simp] theorem onInp_resetNow : (s.onInp f).resetNow = s.resetNow := rfl
@[simp] theorem onInp_station : (s.onInp f).station = s.station := rfl
@[simp] theorem onInp_freeCount : (s.onInp f).freeCount = s.freeCount := rfl
@[simp] theorem onInp_inp : (s.onInp f).inp = f s.inp := rfl
@[simp] theorem onInp_seq : (s.onInp f).seq = s.seq := rfl
@[simp] theorem onInp_gen : (s.onInp f).gen = s.gen := rfl
@[simp] theorem onInp_meas : (s.onInp f).meas = s.meas := rfl
@[simp] theorem onInp_ctl : (s.onInp f).ctl = s.ctl := rfl
@[simp] theorem onInp_table : (s.onInp f).table = s.table := rfl
@[simp] theorem onInp_peers : (s.onInp f).peers = s.peers := rfl
@[simp] theorem onInp_guard : (s.onInp f).guard = s.guard := rfl
@[simp] theorem onInp_sup : (s.onInp f).sup = s.sup := rfl
@[simp] theorem onInp_line : (s.onInp f).line = s.line := rfl
@[simp] theorem onInp_store : (s.onInp f).store = s.store := rfl
end onInp

section onSeq
variable (s : State) (f : Sequencer → Sequencer)
@[simp] theorem onSeq_pending : (s.onSeq f).pending = s.pending := rfl
@[simp] theorem onSeq_held : (s.onSeq f).held = s.held := rfl
@[simp] theorem onSeq_resetNow : (s.onSeq f).resetNow = s.resetNow := rfl
@[simp] theorem onSeq_station : (s.onSeq f).station = s.station := rfl
@[simp] theorem onSeq_freeCount : (s.onSeq f).freeCount = s.freeCount := rfl
@[simp] theorem onSeq_inp : (s.onSeq f).inp = s.inp := rfl
@[simp] theorem onSeq_seq : (s.onSeq f).seq = f s.seq := rfl
@[simp] theorem onSeq_gen : (s.onSeq f).gen = s.gen := rfl
@[simp] theorem onSeq_meas : (s.onSeq f).meas = s.meas := rfl
@[simp] theorem onSeq_ctl : (s.onSeq f).ctl = s.ctl := rfl
@[simp] theorem onSeq_table : (s.onSeq f).table = s.table := rfl
@[simp] theorem onSeq_peers : (s.onSeq f).peers = s.peers := rfl
@[simp] theorem onSeq_guard : (s.onSeq f).guard = s.guard := rfl
@[simp] theorem onSeq_sup : (s.onSeq f).sup = s.sup := rfl
@[simp] theorem onSeq_line : (s.onSeq f).line = s.line := rfl
@[simp] theorem onSeq_store : (s.onSeq f).store = s.store := rfl
end onSeq

section onGen
variable (s : State) (f : Generator → Generator)
@[simp] theorem onGen_pending : (s.onGen f).pending = s.pending := rfl
@[simp] theorem onGen_held : (s.onGen f).held = s.held := rfl
@[simp] theorem onGen_resetNow : (s.onGen f).resetNow = s.resetNow := rfl
@[simp] theorem onGen_station : (s.onGen f).station = s.station := rfl
@[simp] theorem onGen_freeCount : (s.onGen f).freeCount = s.freeCount := rfl
@[simp] theorem onGen_inp : (s.onGen f).inp = s.inp := rfl
@[simp] theorem onGen_seq : (s.onGen f).seq = s.seq := rfl
@[simp] theorem onGen_gen : (s.onGen f).gen = f s.gen := rfl
@[simp] theorem onGen_meas : (s.onGen f).meas = s.meas := rfl
@[simp] theorem onGen_ctl : (s.onGen f).ctl = s.ctl := rfl
@[simp] theorem onGen_table : (s.onGen f).table = s.table := rfl
@[simp] theorem onGen_peers : (s.onGen f).peers = s.peers := rfl
@[simp] theorem onGen_guard : (s.onGen f).guard = s.guard := rfl
@[simp] theorem onGen_sup : (s.onGen f).sup = s.sup := rfl
@[simp] theorem onGen_line : (s.onGen f).line = s.line := rfl
@[simp] theorem onGen_store : (s.onGen f).store = s.store := rfl
end onGen

section onMeas
variable (s : State) (f : Measure → Measure)
@[simp] theorem onMeas_pending : (s.onMeas f).pending = s.pending := rfl
@[simp] theorem onMeas_held : (s.onMeas f).held = s.held := rfl
@[simp] theorem onMeas_resetNow : (s.onMeas f).resetNow = s.resetNow := rfl
@[simp] theorem onMeas_station : (s.onMeas f).station = s.station := rfl
@[simp] theorem onMeas_freeCount : (s.onMeas f).freeCount = s.freeCount := rfl
@[simp] theorem onMeas_inp : (s.onMeas f).inp = s.inp := rfl
@[simp] theorem onMeas_seq : (s.onMeas f).seq = s.seq := rfl
@[simp] theorem onMeas_gen : (s.onMeas f).gen = s.gen := rfl
@[simp] theorem onMeas_meas : (s.onMeas f).meas = f s.meas := rfl
@[simp] theorem onMeas_ctl : (s.onMeas f).ctl = s.ctl := rfl
@[simp] theorem onMeas_table : (s.onMeas f).table = s.table := rfl
@[simp] theorem onMeas_peers : (s.onMeas f).peers = s.peers := rfl
@[simp] theorem onMeas_guard : (s.onMeas f).guard = s.guard := rfl
@[simp] theorem onMeas_sup : (s.onMeas f).sup = s.sup := rfl
@[simp] theorem onMeas_line : (s.onMeas f).line = s.line := rfl
@[simp] theorem onMeas_store : (s.onMeas f).store = s.store := rfl
end onMeas

section onCtl
variable (s : State) (f : CueControl → CueControl)
@[simp] theorem onCtl_pending : (s.onCtl f).pending = s.pending := rfl
@[simp] theorem onCtl_held : (s.onCtl f).held = s.held := rfl
@[simp] theorem onCtl_resetNow : (s.onCtl f).resetNow = s.resetNow := rfl
@[simp] theorem onCtl_station : (s.onCtl f).station = s.station := rfl
@[simp] theorem onCtl_freeCount : (s.onCtl f).freeCount = s.freeCount := rfl
@[simp] theorem onCtl_inp : (s.onCtl f).inp = s.inp := rfl
@[simp] theorem onCtl_seq : (s.onCtl f).seq = s.seq := rfl
@[simp] theorem onCtl_gen : (s.onCtl f).gen = s.gen := rfl
@[simp] theorem onCtl_meas : (s.onCtl f).meas = s.meas := rfl
@[simp] theorem onCtl_ctl : (s.onCtl f).ctl = f s.ctl := rfl
@[simp] theorem onCtl_table : (s.onCtl f).table = s.table := rfl
@[simp] theorem onCtl_peers : (s.onCtl f).peers = s.peers := rfl
@[simp] theorem onCtl_guard : (s.onCtl f).guard = s.guard := rfl
@[simp] theorem onCtl_sup : (s.onCtl f).sup = s.sup := rfl
@[simp] theorem onCtl_line : (s.onCtl f).line = s.line := rfl
@[simp] theorem onCtl_store : (s.onCtl f).store = s.store := rfl
end onCtl

section onTable
variable (s : State) (f : List CueRecord → List CueRecord)
@[simp] theorem onTable_pending : (s.onTable f).pending = s.pending := rfl
@[simp] theorem onTable_held : (s.onTable f).held = s.held := rfl
@[simp] theorem onTable_resetNow : (s.onTable f).resetNow = s.resetNow := rfl
@[simp] theorem onTable_station : (s.onTable f).station = s.station := rfl
@[simp] theorem onTable_freeCount : (s.onTable f).freeCount = s.freeCount := rfl
@[simp] theorem onTable_inp : (s.onTable f).inp = s.inp := rfl
@[simp] theorem onTable_seq : (s.onTable f).seq = s.seq := rfl
@[simp] theorem onTable_gen : (s.onTable f).gen = s.gen := rfl
@[simp] theorem onTable_meas : (s.onTable f).meas = s.meas := rfl
@[simp] theorem onTable_ctl : (s.onTable f).ctl = s.ctl := rfl
@[simp] theorem onTable_table : (s.onTable f).table = f s.table := rfl
@[simp] theorem onTable_peers : (s.onTable f).peers = s.peers := rfl
@[simp] theorem onTable_guard : (s.onTable f).guard = s.guard := rfl
@[simp] theorem onTable_sup : (s.onTable f).sup = s.sup := rfl
@[simp] theorem onTable_line : (s.onTable f).line = s.line := rfl
@[simp] theorem onTable_store : (s.onTable f).store = s.store := rfl
end onTable

section onPeers
variable (s : State) (f : List Peer → List Peer)
@[simp] theorem onPeers_pending : (s.onPeers f).pending = s.pending := rfl
@[simp] theorem onPeers_held : (s.onPeers f).held = s.held := rfl
@[simp] theorem onPeers_resetNow : (s.onPeers f).resetNow = s.resetNow := rfl
@[simp] theorem onPeers_station : (s.onPeers f).station = s.station := rfl
@[simp] theorem onPeers_freeCount : (s.onPeers f).freeCount = s.freeCount := rfl
@[simp] theorem onPeers_inp : (s.onPeers f).inp = s.inp := rfl
@[simp] theorem onPeers_seq : (s.onPeers f).seq = s.seq := rfl
@[simp] theorem onPeers_gen : (s.onPeers f).gen = s.gen := rfl
@[simp] theorem onPeers_meas : (s.onPeers f).meas = s.meas := rfl
@[simp] theorem onPeers_ctl : (s.onPeers f).ctl = s.ctl := rfl
@[simp] theorem onPeers_table : (s.onPeers f).table = s.table := rfl
@[simp] theorem onPeers_peers : (s.onPeers f).peers = f s.peers := rfl
@[simp] theorem onPeers_guard : (s.onPeers f).guard = s.guard := rfl
@[simp] theorem onPeers_sup : (s.onPeers f).sup = s.sup := rfl
@[simp] theorem onPeers_line : (s.onPeers f).line = s.line := rfl
@[simp] theorem onPeers_store : (s.onPeers f).store = s.store := rfl
end onPeers

section onGuard
variable (s : State) (f : ClearanceGuard → ClearanceGuard)
@[simp] theorem onGuard_pending : (s.onGuard f).pending = s.pending := rfl
@[simp] theorem onGuard_held : (s.onGuard f).held = s.held := rfl
@[simp] theorem onGuard_resetNow : (s.onGuard f).resetNow = s.resetNow := rfl
@[simp] theorem onGuard_station : (s.onGuard f).station = s.station := rfl
@[simp] theorem onGuard_freeCount : (s.onGuard f).freeCount = s.freeCount := rfl
@[simp] theorem onGuard_inp : (s.onGuard f).inp = s.inp := rfl
@[simp] theorem onGuard_seq : (s.onGuard f).seq = s.seq := rfl
@[simp] theorem onGuard_gen : (s.onGuard f).gen = s.gen := rfl
@[simp] theorem onGuard_meas : (s.onGuard f).meas = s.meas := rfl
@[simp] theorem onGuard_ctl : (s.onGuard f).ctl = s.ctl := rfl
@[simp] theorem onGuard_table : (s.onGuard f).table = s.table := rfl
@[simp] theorem onGuard_peers : (s.onGuard f).peers = s.peers := rfl
@[simp] theorem onGuard_guard : (s.onGuard f).guard = f s.guard := rfl
@[simp] theorem onGuard_sup : (s.onGuard f).sup = s.sup := rfl
@[simp] theorem onGuard_line : (s.onGuard f).line = s.line := rfl
@[simp] theorem onGuard_store : (s.onGuard f).store = s.store := rfl
end onGuard

section onSup
variable (s : State) (f : Supervision → Supervision)
@[simp] theorem onSup_pending : (s.onSup f).pending = s.pending := rfl
@[simp] theorem onSup_held : (s.onSup f).held = s.held := rfl
@[simp] theorem onSup_resetNow : (s.onSup f).resetNow = s.resetNow := rfl
@[simp] theorem onSup_station : (s.onSup f).station = s.station := rfl
@[simp] theorem onSup_freeCount : (s.onSup f).freeCount = s.freeCount := rfl
@[simp] theorem onSup_inp : (s.onSup f).inp = s.inp := rfl
@[simp] theorem onSup_seq : (s.onSup f).seq = s.seq := rfl
@[simp] theorem onSup_gen : (s.onSup f).gen = s.gen := rfl
@[simp] theorem onSup_meas : (s.onSup f).meas = s.meas := rfl
@[simp] theorem onSup_ctl : (s.onSup f).ctl = s.ctl := rfl
@[simp] theorem onSup_table : (s.onSup f).table = s.table := rfl
@[simp] theorem onSup_peers : (s.onSup f).peers = s.peers := rfl
@[simp] theorem onSup_guard : (s.onSup f).guard = s.guard := rfl
@[simp] theorem onSup_sup : (s.onSup f).sup = f s.sup := rfl
@[simp] theorem onSup_line : (s.onSup f).line = s.line := rfl
@[simp] theorem onSup_store : (s.onSup f).store = s.store := rfl
end onSup

section onLine
variable (s : State) (f : LinePort → LinePort)
@[simp] theorem onLine_pending : (s.onLine f).pending = s.pending := rfl
@[simp] theorem onLine_held : (s.onLine f).held = s.held := rfl
@[simp] theorem onLine_resetNow : (s.onLine f).resetNow = s.resetNow := rfl
@[simp] theorem onLine_station : (s.onLine f).station = s.station := rfl
@[simp] theorem onLine_freeCount : (s.onLine f).freeCount = s.freeCount := rfl
@[simp] theorem onLine_inp : (s.onLine f).inp = s.inp := rfl
@[simp] theorem onLine_seq : (s.onLine f).seq = s.seq := rfl
@[simp] theorem onLine_gen : (s.onLine f).gen = s.gen := rfl
@[simp] theorem onLine_meas : (s.onLine f).meas = s.meas := rfl
@[simp] theorem onLine_ctl : (s.onLine f).ctl = s.ctl := rfl
@[simp] theorem onLine_table : (s.onLine f).table = s.table := rfl
@[simp] theorem onLine_peers : (s.onLine f).peers = s.peers := rfl
@[simp] theorem onLine_guard : (s.onLine f).guard = s.guard := rfl
@[simp] theorem onLine_sup : (s.onLine f).sup = s.sup := rfl
@[simp] theorem onLine_line : (s.onLine f).line = f s.line := rfl
@[simp] theorem onLine_store : (s.onLine f).store = s.store := rfl
end onLine

section onStore
variable (s : State) (f : Stores → Stores)
@[simp] theorem onStore_pending : (s.onStore f).pending = s.pending := rfl
@[simp] theorem onStore_held : (s.onStore f).held = s.held := rfl
@[simp] theorem onStore_resetNow : (s.onStore f).resetNow = s.resetNow := rfl
@[simp] theorem onStore_station : (s.onStore f).station = s.station := rfl
@[simp] theorem onStore_freeCount : (s.onStore f).freeCount = s.freeCount := rfl
@[simp] theorem onStore_inp : (s.onStore f).inp = s.inp := rfl
@[simp] theorem onStore_seq : (s.onStore f).seq = s.seq := rfl
@[simp] theorem onStore_gen : (s.onStore f).gen = s.gen := rfl
@[simp] theorem onStore_meas : (s.onStore f).meas = s.meas := rfl
@[simp] theorem onStore_ctl : (s.onStore f).ctl = s.ctl := rfl
@[simp] theorem onStore_table : (s.onStore f).table = s.table := rfl
@[simp] theorem onStore_peers : (s.onStore f).peers = s.peers := rfl
@[simp] theorem onStore_guard : (s.onStore f).guard = s.guard := rfl
@[simp] theorem onStore_sup : (s.onStore f).sup = s.sup := rfl
@[simp] theorem onStore_line : (s.onStore f).line = s.line := rfl
@[simp] theorem onStore_store : (s.onStore f).store = f s.store := rfl
end onStore

theorem onInp_id (s : State) : (s.onInp fun b => b) = s := rfl
theorem onSeq_id (s : State) : (s.onSeq fun b => b) = s := rfl
theorem onGen_id (s : State) : (s.onGen fun b => b) = s := rfl
theorem onMeas_id (s : State) : (s.onMeas fun b => b) = s := rfl
theorem onCtl_id (s : State) : (s.onCtl fun b => b) = s := rfl
theorem onTable_id (s : State) : (s.onTable fun b => b) = s := rfl
theorem onPeers_id (s : State) : (s.onPeers fun b => b) = s := rfl
theorem onGuard_id (s : State) : (s.onGuard fun b => b) = s := rfl
theorem onSup_id (s : State) : (s.onSup fun b => b) = s := rfl
theorem onLine_id (s : State) : (s.onLine fun b => b) = s := rfl
theorem onStore_id (s : State) : (s.onStore fun b => b) = s := rfl

end Sys2Proof.Machine
end

