-- ==== Sys2Proof/Laws/Frame.lean ====
section
/-! SUPPORT. The base of the state, which no operation of the sequencer, of cue control or of supervision changes: the
queue, the reset applied, the station, the inputs, the cue table and the stores. One lemma per operation. -/

namespace Sys2Proof.Machine

/-- Equal bases, field by field. -/
theorem base_eq_iff (s t : State) : base t = base s ↔ t.pending = s.pending ∧ t.held = s.held ∧ t.station = s.station ∧
    t.freeCount = s.freeCount ∧ t.inp = s.inp ∧ t.table = s.table ∧ t.store = s.store ∧ t.resetNow = s.resetNow := by
  simp [base]

section updates
variable (s : State)
@[simp] theorem onSeq_base (f : Sequencer → Sequencer) : base (s.onSeq f) = base s := rfl
@[simp] theorem onGen_base (f : Generator → Generator) : base (s.onGen f) = base s := rfl
@[simp] theorem onMeas_base (f : Measure → Measure) : base (s.onMeas f) = base s := rfl
@[simp] theorem onCtl_base (f : CueControl → CueControl) : base (s.onCtl f) = base s := rfl
@[simp] theorem onPeers_base (f : List Peer → List Peer) : base (s.onPeers f) = base s := rfl
@[simp] theorem onGuard_base (f : ClearanceGuard → ClearanceGuard) : base (s.onGuard f) = base s := rfl
@[simp] theorem onSup_base (f : Supervision → Supervision) : base (s.onSup f) = base s := rfl
@[simp] theorem onLine_base (f : LinePort → LinePort) : base (s.onLine f) = base s := rfl
end updates

/-- A fold of operations that keep the base keeps it. -/
theorem foldl_base {α : Type} (f : State → α → State) (h : ∀ s a, base (f s a) = base s) (l : List α) (s : State) :
    base (l.foldl f s) = base s := by
  induction l generalizing s with
  | nil => rfl
  | cons a l ih => rw [List.foldl_cons, ih, h]

@[simp] theorem recordEvent_base (e : CueEvent) (s : State) : base (recordEvent e s) = base s := rfl
@[simp] theorem onCtx_base (f : CueContext → CueContext) (s : State) : base (onCtx f s) = base s := rfl
@[simp] theorem onRun_base (f : HomingRun → HomingRun) (s : State) : base (onRun f s) = base s := rfl
@[simp] theorem onHoming_base (f : HomingInputs → HomingInputs) (s : State) : base (onHoming f s) = base s := rfl
@[simp] theorem queueMark_base (n : Nat) (s : State) (i : Nat) : base (queueMark n s i) = base s := rfl
@[simp] theorem queueReply_base (b : ReplyBody) (s : State) : base (queueReply b s) = base s := rfl
@[simp] theorem answer_base (h : Hdr) (k : RequestKind) (r : ReplyResult) (d : Nat) (s : State) :
    base (answer h k r d s) = base s := rfl
@[simp] theorem forceDuty_base (s : State) : base (forceDuty s) = base s := rfl
@[simp] theorem writeDuty_base (d : Nat) (s : State) : base (writeDuty d s) = base s := rfl
@[simp] theorem dwellFollow_base (s : State) : base (dwellFollow s) = base s := rfl

@[simp] theorem followDrive_base (s : State) : base (followDrive s) = base s := by
  unfold followDrive; split <;> split <;> rfl

@[simp] theorem setAxis_base (a : AxisState) (s : State) : base (setAxis a s) = base s := by
  simp [setAxis]

@[simp] theorem releaseCue_base (n : Nat) (s : State) : base (releaseCue n s) = base s := rfl
@[simp] theorem disarm_base (r : DisarmReason) (s : State) (n : Nat) : base (disarm r s n) = base s := rfl

@[simp] theorem disarmAll_base (r : DisarmReason) (s : State) : base (disarmAll r s) = base s :=
  foldl_base _ (fun s n => disarm_base r s n) _ _

@[simp] theorem moveChains_base (o : CueOutcome) (s : State) : base (moveChains o s) = base s := by
  unfold moveChains; split
  · rfl
  · exact foldl_base _ (fun s n => disarm_base _ s n) _ _

@[simp] theorem removeContext_base (x : CueContext) (o : CueOutcome) (r : Nat) (s : State) :
    base (removeContext x o r s) = base s := by simp [removeContext]

@[simp] theorem endCue_base (o : CueOutcome) (s : State) : base (endCue o s) = base s := by
  unfold endCue; split <;> simp

@[simp] theorem closeHoming_base (r : HomingResult) (s : State) : base (closeHoming r s) = base s := rfl

@[simp] theorem tripCue_base (o : CueOutcome) (s : State) : base (tripCue o s) = base s := by
  unfold tripCue; split <;> simp
@[simp] theorem tripHoming_base (s : State) : base (tripHoming s) = base s := by unfold tripHoming; split <;> simp
@[simp] theorem enterTripped_base (o : CueOutcome) (s : State) : base (enterTripped o s) = base s := by
  simp [enterTripped]

@[simp] theorem latch_base (c : Condition) (s : State) : base (latch c s) = base s := rfl

@[simp] theorem dropDemand_base (c : Condition) (s : State) : base (dropDemand c s) = base s := by
  unfold dropDemand; split <;> simp

@[simp] theorem confirmSet_base (s : State) : base (confirmSet s) = base s := by
  unfold confirmSet; split <;> simp

@[simp] theorem enterSetting_base (d : SetDest) (s : State) : base (enterSetting d s) = base s := by
  unfold enterSetting; dsimp only; split <;> simp

@[simp] theorem enterStopping_base (k : StopKind) (d : SetDest) (s : State) : base (enterStopping k d s) = base s := by
  simp [enterStopping]

@[simp] theorem recordHoming_base (s : State) : base (recordHoming s) = base s := by
  unfold recordHoming; split <;> simp

@[simp] theorem abandonHoming_base (s : State) : base (abandonHoming s) = base s := by simp [abandonHoming]
@[simp] theorem failContext_base (c : Condition) (s : State) : base (failContext c s) = base s := rfl

@[simp] theorem fastLatch_base (c : Condition) (s : State) : base (fastLatch c s) = base s := by
  unfold fastLatch; split <;> simp

@[simp] theorem fastRecoverCue_base (s : State) : base (fastRecoverCue s) = base s := by
  unfold fastRecoverCue; split <;> simp

@[simp] theorem fastRecoverIdle_base (s : State) : base (fastRecoverIdle s) = base s := by
  unfold fastRecoverIdle; split <;> simp

@[simp] theorem recoverOccurrence_base (c : Condition) (s : State) : base (recoverOccurrence c s) = base s := by
  unfold recoverOccurrence; split
  · simp
  · split
    · simp
    · split
      · split <;> simp
      · simp

@[simp] theorem latchDemand_base (c : Condition) (s : State) : base (latchDemand c s) = base s := by
  unfold latchDemand; split <;> simp

@[simp] theorem respond_base (c : Condition) (s : State) : base (respond c s) = base s := by
  unfold respond; split <;> simp

@[simp] theorem markPresent_base (c : Condition) (s : State) : base (markPresent c s) = base s := by simp [markPresent]
@[simp] theorem markAbsent_base (c : Condition) (s : State) : base (markAbsent c s) = base s := by simp [markAbsent]

@[simp] theorem evaluate_base (c : Condition) (d : Bool) (s : State) : base (evaluate c d s) = base s := by
  unfold evaluate; split
  · split <;> simp
  · simp

@[simp] theorem setEnding_base (o : CueOutcome) (s : State) : base (setEnding o s) = base s := rfl

@[simp] theorem controlledPath_base (o : CueOutcome) (s : State) : base (controlledPath o s) = base s := by
  unfold controlledPath; split <;> try split
  all_goals simp

@[simp] theorem controlledEnd_base (o : CueOutcome) (s : State) : base (controlledEnd o s) = base s := by
  unfold controlledEnd; split
  · rfl
  · split <;> simp

@[simp] theorem fireMarks_base (old : Position) (s : State) : base (fireMarks old s) = base s := by
  unfold fireMarks; split
  · rfl
  · split
    · rfl
    · dsimp only; rw [foldl_base _ (fun s i => queueMark_base _ s i)]; rfl

@[simp] theorem retake_base (s : State) : base (retake s) = base s := by simp [retake]

@[simp] theorem groupTest_base (s : State) (m : Nat) : base (groupTest s m) = base s := by
  unfold groupTest; split
  · rfl
  · split
    · split <;> simp
    · rfl

@[simp] theorem groupTestAll_base (s : State) : base (groupTestAll s) = base s := by
  unfold groupTestAll; split
  · rfl
  · exact foldl_base _ groupTest_base _ _

@[simp] theorem fixStart_base (x : CueContext) (s : State) : base (fixStart x s) = base s := by simp [fixStart]
@[simp] theorem enterHoming_base (s : State) : base (enterHoming s) = base s := by simp [enterHoming]

@[simp] theorem completeRelease_base (s : State) : base (completeRelease s) = base s := by
  unfold completeRelease; split <;> split <;> simp

@[simp] theorem beginRelease_base (r : StartRequest) (s : State) : base (beginRelease r s) = base s := by
  have h (l : List Condition) (t : State) : base (l.foldl (fun t c => recoverOccurrence c t) t) = base t :=
    foldl_base _ (fun t c => recoverOccurrence_base c t) l t
  unfold beginRelease; dsimp only; split <;> simp [h]

@[simp] theorem seeReady_base (s : State) : base (seeReady s) = base s := by unfold seeReady; split <;> rfl

@[simp] theorem completeWake_base (s : State) : base (completeWake s) = base s := by
  unfold completeWake; dsimp only; split <;> simp

@[simp] theorem enterWaking_base (r : StartRequest) (s : State) : base (enterWaking r s) = base s := by
  unfold enterWaking; dsimp only; split <;> simp

@[simp] theorem requestStart_base (r : StartRequest) (s : State) : base (requestStart r s) = base s := by
  unfold requestStart; split <;> simp

@[simp] theorem endInBand_base (s : State) : base (endInBand s) = base s := by unfold endInBand; split <;> simp

@[simp] theorem startCue_base (r : CueRecord) (s : State) : base (startCue r s) = base s := by
  unfold startCue; dsimp only; split <;> simp

@[simp] theorem setTrigger_base (n : Nat) (t : Trigger) (s : State) : base (setTrigger n t s) = base s := rfl

@[simp] theorem expireDelay_base (n : Nat) (s : State) : base (expireDelay n s) = base s := by
  unfold expireDelay; split
  · rfl
  · split <;> simp

@[simp] theorem drainDelay_base (s : State) (n : Nat) : base (drainDelay s n) = base s := by
  unfold drainDelay; split <;> simp

@[simp] theorem drainDelays_base (s : State) : base (drainDelays s) = base s := foldl_base _ drainDelay_base _ _

@[simp] theorem loseHoming_base (s : State) : base (loseHoming s) = base s := by
  unfold loseHoming; split <;> try split
  all_goals simp

@[simp] theorem loseEnable_base (s : State) : base (loseEnable s) = base s := by simp [loseEnable]

@[simp] theorem endControlledStop_base (s : State) : base (endControlledStop s) = base s := by
  unfold endControlledStop; split <;> simp

@[simp] theorem endFastStop_base (s : State) : base (endFastStop s) = base s := by
  unfold endFastStop; dsimp only; split
  · simp
  · split
    · simp
    · split <;> simp

@[simp] theorem arrive_base (s : State) : base (arrive s) = base s := by simp [arrive]

@[simp] theorem refuseRecovery_base (s : State) : base (refuseRecovery s) = base s := by
  unfold refuseRecovery; split
  · simp
  · split
    · simp
    · simp only [fastLatch_base, onSup_base]
      exact foldl_base _ (fun t d => latch_base d t) _ _

@[simp] theorem buildStatus_base (s : State) : base (buildStatus s) = base s := by unfold buildStatus; split <;> rfl
@[simp] theorem buildAnnounce_base (c : AnnounceCause) (s : State) : base (buildAnnounce c s) = base s := by
  unfold buildAnnounce; split <;> rfl
@[simp] theorem restFollow_base (s : State) : base (restFollow s) = base s := rfl

/-- What one build of a STATUS keeps, any number of builds keep. -/
theorem iterate_keeps {α : Type} (g : State → α) (h : ∀ s, g (buildStatus s) = g s) (n : Nat) (s : State) :
    g (buildStatus^[n] s) = g s := by
  induction n generalizing s with
  | zero => rfl
  | succ n ih => rw [Function.iterate_succ_apply, ih, h]

@[simp] theorem statusIfDue_base (s : State) : base (statusIfDue s) = base s :=
  iterate_keeps base buildStatus_base _ s
@[simp] theorem finish_base (s : State) : base (finish s) = base s := by simp [finish]

end Sys2Proof.Machine
end

