-- ==== Sys2Proof/Laws/Still.lean ====
section
/-! SUPPORT. What the operations of the sequencer, of cue control and of supervision leave alone besides the base: the
measured values, enable and override, the guard's active set and envelope, the answers, the ANNOUNCE and the sequence
count. One lemma per operation; `loseEnable`, `queueReply` and `buildAnnounce` are the exceptions. -/

namespace Sys2Proof.Machine

section updates
variable (s : State)
@[simp] theorem onSeq_still (f : Sequencer → Sequencer) : still (s.onSeq f) = still s := rfl
@[simp] theorem onGen_still (f : Generator → Generator) : still (s.onGen f) = still s := rfl
@[simp] theorem onPeers_still (f : List Peer → List Peer) : still (s.onPeers f) = still s := rfl
@[simp] theorem onSup_still (f : Supervision → Supervision) : still (s.onSup f) = still s := rfl
theorem onMeas_still (f : Measure → Measure) (h : ∀ m, senses (f m) = senses m) :
    still (s.onMeas f) = still s := by simp [still, h]
theorem onCtl_still (f : CueControl → CueControl) (h : ∀ c, enabling (f c) = enabling c) :
    still (s.onCtl f) = still s := by simp [still, h]
theorem onGuard_still (f : ClearanceGuard → ClearanceGuard) (h : ∀ g, bounds (f g) = bounds g) :
    still (s.onGuard f) = still s := by simp [still, h]
theorem onLine_still (f : LinePort → LinePort) (h : ∀ l, outbox (f l) = outbox l) :
    still (s.onLine f) = still s := by simp [still, h]
end updates

@[simp] theorem captureIn_senses (l a : AxisState) (m : Measure) : senses (captureIn l a m) = senses m := by
  unfold captureIn; split
  · rfl
  · split <;> rfl

@[simp] theorem contextIn_enabling (a : AxisState) (c : CueControl) : enabling (contextIn a c) = enabling c := by
  unfold contextIn; split <;> rfl

@[simp] theorem noteChange_outbox (l : LinePort) : outbox (noteChange l) = outbox l := rfl

/-- A fold of operations that keep this keeps it. -/
theorem foldl_still {α : Type} (f : State → α → State) (h : ∀ s a, still (f s a) = still s) (l : List α) (s : State) :
    still (l.foldl f s) = still s := by
  induction l generalizing s with
  | nil => rfl
  | cons a l ih => rw [List.foldl_cons, ih, h]

@[simp] theorem recordEvent_still (e : CueEvent) (s : State) : still (recordEvent e s) = still s := rfl
@[simp] theorem onCtx_still (f : CueContext → CueContext) (s : State) : still (onCtx f s) = still s := rfl
@[simp] theorem onRun_still (f : HomingRun → HomingRun) (s : State) : still (onRun f s) = still s := rfl
@[simp] theorem onHoming_still (f : HomingInputs → HomingInputs) (s : State) : still (onHoming f s) = still s := rfl
@[simp] theorem queueMark_still (n : Nat) (s : State) (i : Nat) : still (queueMark n s i) = still s := by
  refine onLine_still s _ fun l => ?_
  split <;> rfl
@[simp] theorem forceDuty_still (s : State) : still (forceDuty s) = still s := rfl
@[simp] theorem writeDuty_still (d : Nat) (s : State) : still (writeDuty d s) = still s := rfl
@[simp] theorem dwellFollow_still (s : State) : still (dwellFollow s) = still s := rfl

@[simp] theorem followDrive_still (s : State) : still (followDrive s) = still s := by
  unfold followDrive; split <;> split <;> rfl

@[simp] theorem setAxis_still (a : AxisState) (s : State) : still (setAxis a s) = still s := by
  rw [setAxis, dwellFollow_still, followDrive_still, onLine_still _ _ noteChange_outbox,
    onMeas_still _ _ (captureIn_senses _ _), onSup_still, onCtl_still _ _ (contextIn_enabling _), onSeq_still]

@[simp] theorem releaseCue_still (n : Nat) (s : State) : still (releaseCue n s) = still s := rfl
@[simp] theorem disarm_still (r : DisarmReason) (s : State) (n : Nat) : still (disarm r s n) = still s := rfl

@[simp] theorem disarmAll_still (r : DisarmReason) (s : State) : still (disarmAll r s) = still s :=
  foldl_still _ (fun s n => disarm_still r s n) _ _

@[simp] theorem moveChains_still (o : CueOutcome) (s : State) : still (moveChains o s) = still s := by
  unfold moveChains; split
  · rfl
  · exact foldl_still _ (fun s n => disarm_still _ s n) _ _

@[simp] theorem removeContext_still (x : CueContext) (o : CueOutcome) (r : Nat) (s : State) :
    still (removeContext x o r s) = still s := by
  simp only [removeContext, releaseCue_still, onSup_still, onGen_still]
  refine (onCtl_still _ _ fun c => rfl).trans ?_
  rw [recordEvent_still]

@[simp] theorem endCue_still (o : CueOutcome) (s : State) : still (endCue o s) = still s := by
  unfold endCue; split <;> simp

@[simp] theorem closeHoming_still (r : HomingResult) (s : State) : still (closeHoming r s) = still s := rfl

@[simp] theorem tripCue_still (o : CueOutcome) (s : State) : still (tripCue o s) = still s := by
  unfold tripCue; split <;> simp
@[simp] theorem tripHoming_still (s : State) : still (tripHoming s) = still s := by unfold tripHoming; split <;> simp
@[simp] theorem enterTripped_still (o : CueOutcome) (s : State) : still (enterTripped o s) = still s := by
  simp [enterTripped]

@[simp] theorem latch_still (c : Condition) (s : State) : still (latch c s) = still s := rfl

@[simp] theorem dropDemand_still (c : Condition) (s : State) : still (dropDemand c s) = still s := by
  unfold dropDemand; split <;> simp

@[simp] theorem confirmSet_still (s : State) : still (confirmSet s) = still s := by
  unfold confirmSet; split <;> simp

@[simp] theorem enterSetting_still (d : SetDest) (s : State) : still (enterSetting d s) = still s := by
  unfold enterSetting; dsimp only; split <;> simp

@[simp] theorem enterStopping_still (k : StopKind) (d : SetDest) (s : State) : still (enterStopping k d s) = still s := by
  simp [enterStopping]

@[simp] theorem recordHoming_still (s : State) : still (recordHoming s) = still s := by
  unfold recordHoming; split <;> simp

@[simp] theorem abandonHoming_still (s : State) : still (abandonHoming s) = still s := by simp [abandonHoming]
@[simp] theorem failContext_still (c : Condition) (s : State) : still (failContext c s) = still s := rfl

@[simp] theorem fastLatch_still (c : Condition) (s : State) : still (fastLatch c s) = still s := by
  unfold fastLatch; split <;> simp

@[simp] theorem fastRecoverCue_still (s : State) : still (fastRecoverCue s) = still s := by
  unfold fastRecoverCue; split <;> simp

@[simp] theorem fastRecoverIdle_still (s : State) : still (fastRecoverIdle s) = still s := by
  unfold fastRecoverIdle; split <;> simp

@[simp] theorem recoverOccurrence_still (c : Condition) (s : State) : still (recoverOccurrence c s) = still s := by
  unfold recoverOccurrence; split
  · simp
  · split
    · simp
    · split
      · split <;> simp
      · simp

@[simp] theorem latchDemand_still (c : Condition) (s : State) : still (latchDemand c s) = still s := by
  unfold latchDemand; split <;> simp

@[simp] theorem respond_still (c : Condition) (s : State) : still (respond c s) = still s := by
  unfold respond; split <;> simp

@[simp] theorem markPresent_still (c : Condition) (s : State) : still (markPresent c s) = still s := by simp [markPresent]
@[simp] theorem markAbsent_still (c : Condition) (s : State) : still (markAbsent c s) = still s := by simp [markAbsent]

@[simp] theorem evaluate_still (c : Condition) (d : Bool) (s : State) : still (evaluate c d s) = still s := by
  unfold evaluate; split
  · split <;> simp
  · simp

@[simp] theorem setEnding_still (o : CueOutcome) (s : State) : still (setEnding o s) = still s := rfl

@[simp] theorem controlledPath_still (o : CueOutcome) (s : State) : still (controlledPath o s) = still s := by
  unfold controlledPath; split <;> try split
  all_goals simp

@[simp] theorem controlledEnd_still (o : CueOutcome) (s : State) : still (controlledEnd o s) = still s := by
  unfold controlledEnd; split
  · rfl
  · split <;> simp

@[simp] theorem fireMarks_still (old : Position) (s : State) : still (fireMarks old s) = still s := by
  unfold fireMarks; split
  · rfl
  · split
    · rfl
    · dsimp only; rw [foldl_still _ (fun s i => queueMark_still _ s i)]; rfl

@[simp] theorem retake_still (s : State) : still (retake s) = still s := by simp [retake]

@[simp] theorem groupTest_still (s : State) (m : Nat) : still (groupTest s m) = still s := by
  unfold groupTest; split
  · rfl
  · split
    · split <;> simp
    · rfl

@[simp] theorem groupTestAll_still (s : State) : still (groupTestAll s) = still s := by
  unfold groupTestAll; split
  · rfl
  · exact foldl_still _ groupTest_still _ _

@[simp] theorem fixStart_still (x : CueContext) (s : State) : still (fixStart x s) = still s := by simp [fixStart]
@[simp] theorem enterHoming_still (s : State) : still (enterHoming s) = still s := by
  simp only [enterHoming, onGen_still, onRun_still]
  refine (onGuard_still _ _ fun g => rfl).trans ((onMeas_still _ _ fun m => rfl).trans (setAxis_still .homing s))

@[simp] theorem completeRelease_still (s : State) : still (completeRelease s) = still s := by
  unfold completeRelease; split <;> split <;> simp

@[simp] theorem beginRelease_still (r : StartRequest) (s : State) : still (beginRelease r s) = still s := by
  have h (l : List Condition) (t : State) : still (l.foldl (fun t c => recoverOccurrence c t) t) = still t :=
    foldl_still _ (fun t c => recoverOccurrence_still c t) l t
  unfold beginRelease; dsimp only; split <;> simp [h]

@[simp] theorem seeReady_still (s : State) : still (seeReady s) = still s := by unfold seeReady; split <;> rfl

@[simp] theorem completeWake_still (s : State) : still (completeWake s) = still s := by
  unfold completeWake; dsimp only; split <;> simp

@[simp] theorem enterWaking_still (r : StartRequest) (s : State) : still (enterWaking r s) = still s := by
  unfold enterWaking; dsimp only; split <;> simp

@[simp] theorem requestStart_still (r : StartRequest) (s : State) : still (requestStart r s) = still s := by
  unfold requestStart; split <;> simp

@[simp] theorem endInBand_still (s : State) : still (endInBand s) = still s := by unfold endInBand; split <;> simp

@[simp] theorem startCue_still (r : CueRecord) (s : State) : still (startCue r s) = still s := by
  have h (t : State) : still (t.onLine fun l => { l with markLost := false }) = still t := rfl
  unfold startCue; dsimp only; split <;>
    simp only [endInBand_still, requestStart_still, recordEvent_still, h, onGen_still] <;> rfl

@[simp] theorem setTrigger_still (n : Nat) (t : Trigger) (s : State) : still (setTrigger n t s) = still s := rfl

@[simp] theorem expireDelay_still (n : Nat) (s : State) : still (expireDelay n s) = still s := by
  unfold expireDelay; split
  · rfl
  · split <;> simp

@[simp] theorem drainDelay_still (s : State) (n : Nat) : still (drainDelay s n) = still s := by
  unfold drainDelay; split <;> simp

@[simp] theorem drainDelays_still (s : State) : still (drainDelays s) = still s := foldl_still _ drainDelay_still _ _

@[simp] theorem loseHoming_still (s : State) : still (loseHoming s) = still s := by
  unfold loseHoming; split <;> try split
  all_goals simp


@[simp] theorem endControlledStop_still (s : State) : still (endControlledStop s) = still s := by
  unfold endControlledStop; split <;> simp

@[simp] theorem endFastStop_still (s : State) : still (endFastStop s) = still s := by
  unfold endFastStop; dsimp only; split
  · simp
  · split
    · simp
    · split <;> simp

@[simp] theorem arrive_still (s : State) : still (arrive s) = still s := by simp [arrive]

@[simp] theorem refuseRecovery_still (s : State) : still (refuseRecovery s) = still s := by
  unfold refuseRecovery; split
  · simp
  · split
    · simp
    · simp only [fastLatch_still, onSup_still]
      exact foldl_still _ (fun t d => latch_still d t) _ _

@[simp] theorem buildStatus_still (s : State) : still (buildStatus s) = still s := by unfold buildStatus; split <;> rfl
@[simp] theorem restFollow_still (s : State) : still (restFollow s) = still s := rfl
@[simp] theorem statusIfDue_still (s : State) : still (statusIfDue s) = still s :=
  iterate_keeps still buildStatus_still _ s
@[simp] theorem finish_still (s : State) : still (finish s) = still s := by simp [finish]

end Sys2Proof.Machine
end

