-- ==== Sys2Proof/Laws/Ops.lean ====
section
/-! SUPPORT. What each shared operation does, said once: the blocks it changes and the values it leaves. -/

namespace Sys2Proof.Machine

/-! ## Duty and drive -/

theorem forceDuty_meas (s : State) :
    (forceDuty s).meas = { s.meas with pendingDuty := 2048, activeDuty := 2048 } := rfl

@[simp] theorem followDrive_seq (s : State) : (followDrive s).seq = s.seq := by
  unfold followDrive; split <;> split <;> rfl
@[simp] theorem followDrive_gen (s : State) : (followDrive s).gen = s.gen := by
  unfold followDrive; split <;> split <;> rfl
@[simp] theorem followDrive_ctl (s : State) : (followDrive s).ctl = s.ctl := by
  unfold followDrive; split <;> split <;> rfl
@[simp] theorem followDrive_peers (s : State) : (followDrive s).peers = s.peers := by
  unfold followDrive; split <;> split <;> rfl
@[simp] theorem followDrive_guard (s : State) : (followDrive s).guard = s.guard := by
  unfold followDrive; split <;> split <;> rfl
@[simp] theorem followDrive_line (s : State) : (followDrive s).line = s.line := by
  unfold followDrive; split <;> split <;> rfl
@[simp] theorem followDrive_present (s : State) : (followDrive s).sup.present = s.sup.present := by
  unfold followDrive; split <;> split <;> rfl
@[simp] theorem followDrive_latched (s : State) : (followDrive s).sup.latched = s.sup.latched := by
  unfold followDrive; split <;> split <;> rfl
@[simp] theorem followDrive_recovery (s : State) : (followDrive s).sup.recovery = s.sup.recovery := by
  unfold followDrive; split <;> split <;> rfl
@[simp] theorem followDrive_inp (s : State) : (followDrive s).inp = s.inp := by
  unfold followDrive; split <;> split <;> rfl
@[simp] theorem followDrive_store (s : State) : (followDrive s).store = s.store := by
  unfold followDrive; split <;> split <;> rfl
@[simp] theorem followDrive_capture (s : State) : (followDrive s).meas.capture = s.meas.capture := by
  unfold followDrive; split <;> split <;> rfl

/-- Following the drive changes neither DRIVE_EN nor the axis. -/
@[simp] theorem followDrive_driveEn (s : State) : driveEn (followDrive s) = driveEn s := by
  simp [driveEn, trippedHolding, isLatched]

/-- With the drive off or the duty source 2048, the duty is forced; else it stands (R2, R135). -/
theorem followDrive_meas (s : State) :
    (followDrive s).meas =
      if dutyAtZero s then { s.meas with pendingDuty := 2048, activeDuty := 2048 } else s.meas := by
  unfold followDrive; split <;> split <;> rfl

/-- The ready-seen flag is cleared with the drive off (R142). -/
theorem followDrive_readySeen (s : State) :
    (followDrive s).sup.readySeen = (driveEn s && s.sup.readySeen) := by
  have hf : driveEn (forceDuty s) = driveEn s := rfl
  unfold followDrive
  by_cases hd : driveEn s = true <;> by_cases hz : dutyAtZero s = true <;> simp [hd, hz, forceDuty]

@[simp] theorem dwellFollow_seq (s : State) : (dwellFollow s).seq = s.seq := rfl
@[simp] theorem dwellFollow_gen (s : State) : (dwellFollow s).gen = s.gen := rfl
@[simp] theorem dwellFollow_meas (s : State) : (dwellFollow s).meas = s.meas := rfl
@[simp] theorem dwellFollow_ctl (s : State) : (dwellFollow s).ctl = s.ctl := rfl
@[simp] theorem dwellFollow_peers (s : State) : (dwellFollow s).peers = s.peers := rfl
@[simp] theorem dwellFollow_guard (s : State) : (dwellFollow s).guard = s.guard := rfl
@[simp] theorem dwellFollow_line (s : State) : (dwellFollow s).line = s.line := rfl
@[simp] theorem dwellFollow_present (s : State) : (dwellFollow s).sup.present = s.sup.present := rfl
@[simp] theorem dwellFollow_latched (s : State) : (dwellFollow s).sup.latched = s.sup.latched := rfl
@[simp] theorem dwellFollow_readySeen (s : State) : (dwellFollow s).sup.readySeen = s.sup.readySeen := rfl
@[simp] theorem dwellFollow_inp (s : State) : (dwellFollow s).inp = s.inp := rfl
@[simp] theorem dwellFollow_store (s : State) : (dwellFollow s).store = s.store := rfl
@[simp] theorem dwellFollow_driveEn (s : State) : driveEn (dwellFollow s) = driveEn s := rfl
theorem dwellFollow_none (s : State) (h : s.sup.recovery = none) : dwellFollow s = s := by
  simp [dwellFollow, State.onSup, h]
  cases s; simp_all
  cases ‹Supervision›; simp_all

/-! ## Change of axis state -/

@[simp] theorem setAxis_seq (a : AxisState) (s : State) : (setAxis a s).seq = seqIn a s.seq := by simp [setAxis]
@[simp] theorem setAxis_ctl (a : AxisState) (s : State) : (setAxis a s).ctl = contextIn a s.ctl := by simp [setAxis]
@[simp] theorem setAxis_gen (a : AxisState) (s : State) : (setAxis a s).gen = s.gen := by simp [setAxis]
@[simp] theorem setAxis_peers (a : AxisState) (s : State) : (setAxis a s).peers = s.peers := by simp [setAxis]
@[simp] theorem setAxis_guard (a : AxisState) (s : State) : (setAxis a s).guard = s.guard := by simp [setAxis]
@[simp] theorem setAxis_line (a : AxisState) (s : State) : (setAxis a s).line = noteChange s.line := by simp [setAxis]
@[simp] theorem setAxis_inp (a : AxisState) (s : State) : (setAxis a s).inp = s.inp := by simp [setAxis]
@[simp] theorem setAxis_store (a : AxisState) (s : State) : (setAxis a s).store = s.store := by simp [setAxis]
@[simp] theorem setAxis_station (a : AxisState) (s : State) : (setAxis a s).station = s.station :=
  (((base_eq_iff _ _).1 (setAxis_base a s)).2.2).1
@[simp] theorem setAxis_table (a : AxisState) (s : State) : (setAxis a s).table = s.table :=
  (((base_eq_iff _ _).1 (setAxis_base a s)).2.2.2.2.2).1
@[simp] theorem setAxis_latched (a : AxisState) (s : State) : (setAxis a s).sup.latched = s.sup.latched := by
  simp [setAxis, presenceIn]
@[simp] theorem setAxis_present (a : AxisState) (s : State) :
    (setAxis a s).sup.present = (presenceIn a s.sup).present := by simp [setAxis]

@[simp] theorem seqIn_axis (a : AxisState) (q : Sequencer) : (seqIn a q).axis = a := rfl
@[simp] theorem seqIn_dest (a : AxisState) (q : Sequencer) : (seqIn a q).dest = q.dest := rfl
@[simp] theorem seqIn_stopKind (a : AxisState) (q : Sequencer) : (seqIn a q).stopKind = q.stopKind := rfl
@[simp] theorem contextIn_armed (a : AxisState) (c : CueControl) : (contextIn a c).armed = c.armed := by
  unfold contextIn; split <;> rfl
@[simp] theorem contextIn_homing (a : AxisState) (c : CueControl) : (contextIn a c).homing = c.homing := by
  unfold contextIn; split <;> rfl
@[simp] theorem contextIn_lastEvent (a : AxisState) (c : CueControl) : (contextIn a c).lastEvent = c.lastEvent := by
  unfold contextIn; split <;> rfl
@[simp] theorem contextIn_other (a : AxisState) (c : CueControl) (h : a ≠ .moving) : contextIn a c = c := by
  simp [contextIn, h]

/-- The duty after a change of axis state: forced where its source is 2048 or the drive is off (R2, R135). -/
theorem setAxis_duty (a : AxisState) (s : State) :
    let t := ((s.onSeq (seqIn a)).onSup (presenceIn a))
    (setAxis a s).meas.pendingDuty = (if dutyAtZero t then 2048 else s.meas.pendingDuty) ∧
      (setAxis a s).meas.activeDuty = (if dutyAtZero t then 2048 else s.meas.activeDuty) := by
  have hz : dutyAtZero (((((s.onSeq (seqIn a)).onCtl (contextIn a)).onSup (presenceIn a)).onMeas
      (captureIn s.seq.axis a)).onLine noteChange) = dutyAtZero ((s.onSeq (seqIn a)).onSup (presenceIn a)) := rfl
  have hc (l : AxisState) (m : Measure) :
      (captureIn l a m).pendingDuty = m.pendingDuty ∧ (captureIn l a m).activeDuty = m.activeDuty := by
    unfold captureIn; split
    · exact ⟨rfl, rfl⟩
    · split <;> exact ⟨rfl, rfl⟩
  simp only [setAxis, dwellFollow_meas, followDrive_meas, hz]
  split <;> simp [hc]

/-! ## Disarming -/

@[simp] theorem disarm_armed (r : DisarmReason) (s : State) (n : Nat) :
    (disarm r s n).ctl.armed = s.ctl.armed.filter fun a => decide (a.cue ≠ n) := rfl
@[simp] theorem disarm_peers (r : DisarmReason) (s : State) (n : Nat) :
    (disarm r s n).peers = releasePeers n s.peers := rfl
@[simp] theorem disarm_ctx (r : DisarmReason) (s : State) (n : Nat) : (disarm r s n).ctl.ctx = s.ctl.ctx := rfl
@[simp] theorem disarm_lastEvent (r : DisarmReason) (s : State) (n : Nat) :
    (disarm r s n).ctl.lastEvent = some (.disarmed n r) := rfl

/-- What a disarming leaves alone: all but the armed list, the last event and the peer table. -/
def undisarmed (s : State) :=
  (base s, s.seq, s.gen, s.meas, s.guard, s.sup, s.line, s.ctl.ctx, s.ctl.homing, enabling s.ctl)

@[simp] theorem disarm_rest (r : DisarmReason) (s : State) (n : Nat) : undisarmed (disarm r s n) = undisarmed s := rfl

theorem foldl_disarm_rest (r : DisarmReason) (l : List Nat) (s : State) :
    undisarmed (l.foldl (disarm r) s) = undisarmed s := by
  induction l generalizing s with
  | nil => rfl
  | cons n l ih => rw [List.foldl_cons, ih, disarm_rest]

theorem foldl_disarm_armed (r : DisarmReason) (l : List Nat) (s : State) :
    (l.foldl (disarm r) s).ctl.armed = s.ctl.armed.filter fun a => !l.contains a.cue := by
  induction l generalizing s with
  | nil => simp
  | cons n l ih =>
    rw [List.foldl_cons, ih, disarm_armed, List.filter_filter]
    congr 1; funext a; by_cases h : a.cue = n <;> simp [h]

/-- Every armed cue disarmed: the list is empty (R63, R79, R80). -/
@[simp] theorem disarmAll_armed (r : DisarmReason) (s : State) : (disarmAll r s).ctl.armed = [] := by
  rw [disarmAll, foldl_disarm_armed, List.filter_eq_nil_iff]
  intro a ha
  have : a.cue ∈ s.ctl.armed.map (·.cue) := List.mem_map_of_mem ha
  simp [this]

@[simp] theorem disarmAll_rest (r : DisarmReason) (s : State) : undisarmed (disarmAll r s) = undisarmed s :=
  foldl_disarm_rest r _ s

@[simp] theorem disarmAll_seq (r : DisarmReason) (s : State) : (disarmAll r s).seq = s.seq :=
  congrArg (fun p => p.2.1) (disarmAll_rest r s)
@[simp] theorem disarmAll_gen (r : DisarmReason) (s : State) : (disarmAll r s).gen = s.gen :=
  congrArg (fun p => p.2.2.1) (disarmAll_rest r s)
@[simp] theorem disarmAll_meas (r : DisarmReason) (s : State) : (disarmAll r s).meas = s.meas :=
  congrArg (fun p => p.2.2.2.1) (disarmAll_rest r s)
@[simp] theorem disarmAll_guard (r : DisarmReason) (s : State) : (disarmAll r s).guard = s.guard :=
  congrArg (fun p => p.2.2.2.2.1) (disarmAll_rest r s)
@[simp] theorem disarmAll_sup (r : DisarmReason) (s : State) : (disarmAll r s).sup = s.sup :=
  congrArg (fun p => p.2.2.2.2.2.1) (disarmAll_rest r s)
@[simp] theorem disarmAll_line (r : DisarmReason) (s : State) : (disarmAll r s).line = s.line :=
  congrArg (fun p => p.2.2.2.2.2.2.1) (disarmAll_rest r s)
@[simp] theorem disarmAll_ctx (r : DisarmReason) (s : State) : (disarmAll r s).ctl.ctx = s.ctl.ctx :=
  congrArg (fun p => p.2.2.2.2.2.2.2.1) (disarmAll_rest r s)
@[simp] theorem disarmAll_homing (r : DisarmReason) (s : State) : (disarmAll r s).ctl.homing = s.ctl.homing :=
  congrArg (fun p => p.2.2.2.2.2.2.2.2.1) (disarmAll_rest r s)

/-! ## Ends of cues -/

@[simp] theorem removeContext_seq (x : CueContext) (o : CueOutcome) (r : Nat) (s : State) :
    (removeContext x o r s).seq = s.seq := rfl
@[simp] theorem removeContext_meas (x : CueContext) (o : CueOutcome) (r : Nat) (s : State) :
    (removeContext x o r s).meas = s.meas := rfl
@[simp] theorem removeContext_guard (x : CueContext) (o : CueOutcome) (r : Nat) (s : State) :
    (removeContext x o r s).guard = s.guard := rfl
@[simp] theorem removeContext_line (x : CueContext) (o : CueOutcome) (r : Nat) (s : State) :
    (removeContext x o r s).line = s.line := rfl
@[simp] theorem removeContext_ctl (x : CueContext) (o : CueOutcome) (r : Nat) (s : State) :
    (removeContext x o r s).ctl =
      { s.ctl with ctx := none, lastEvent := some (.ended x.record.cue.number o r) } := rfl
@[simp] theorem removeContext_gen (x : CueContext) (o : CueOutcome) (r : Nat) (s : State) :
    (removeContext x o r s).gen = { s.gen with fired := [] } := rfl
@[simp] theorem removeContext_sup (x : CueContext) (o : CueOutcome) (r : Nat) (s : State) :
    (removeContext x o r s).sup = { s.sup with recovery := none } := rfl
@[simp] theorem removeContext_peers (x : CueContext) (o : CueOutcome) (r : Nat) (s : State) :
    (removeContext x o r s).peers = releasePeers x.record.cue.number s.peers := rfl

@[simp] theorem moveChains_seq (o : CueOutcome) (s : State) : (moveChains o s).seq = s.seq := by
  unfold moveChains; split
  · rfl
  · exact congrArg (fun p => p.2.1) (foldl_disarm_rest _ _ s)
@[simp] theorem moveChains_gen (o : CueOutcome) (s : State) : (moveChains o s).gen = s.gen := by
  unfold moveChains; split
  · rfl
  · exact congrArg (fun p => p.2.2.1) (foldl_disarm_rest _ _ s)
@[simp] theorem moveChains_meas (o : CueOutcome) (s : State) : (moveChains o s).meas = s.meas := by
  unfold moveChains; split
  · rfl
  · exact congrArg (fun p => p.2.2.2.1) (foldl_disarm_rest _ _ s)
@[simp] theorem moveChains_guard (o : CueOutcome) (s : State) : (moveChains o s).guard = s.guard := by
  unfold moveChains; split
  · rfl
  · exact congrArg (fun p => p.2.2.2.2.1) (foldl_disarm_rest _ _ s)
@[simp] theorem moveChains_sup (o : CueOutcome) (s : State) : (moveChains o s).sup = s.sup := by
  unfold moveChains; split
  · rfl
  · exact congrArg (fun p => p.2.2.2.2.2.1) (foldl_disarm_rest _ _ s)
@[simp] theorem moveChains_line (o : CueOutcome) (s : State) : (moveChains o s).line = s.line := by
  unfold moveChains; split
  · rfl
  · exact congrArg (fun p => p.2.2.2.2.2.2.1) (foldl_disarm_rest _ _ s)
@[simp] theorem moveChains_ctx (o : CueOutcome) (s : State) : (moveChains o s).ctl.ctx = s.ctl.ctx := by
  unfold moveChains; split
  · rfl
  · exact congrArg (fun p => p.2.2.2.2.2.2.2.1) (foldl_disarm_rest _ _ s)
@[simp] theorem moveChains_homing (o : CueOutcome) (s : State) : (moveChains o s).ctl.homing = s.ctl.homing := by
  unfold moveChains; split
  · rfl
  · exact congrArg (fun p => p.2.2.2.2.2.2.2.2.1) (foldl_disarm_rest _ _ s)

/-- An outcome that lets chains run on keeps every armed number; any other keeps those not PENDING (R77). -/
theorem moveChains_numbers (o : CueOutcome) (s : State) :
    armedNumbers (moveChains o s) =
      if runsOn o then armedNumbers s
      else (s.ctl.armed.filter fun a => !(pendingCues s).contains a.cue).map (·.cue) := by
  unfold moveChains armedNumbers; split
  · simp only [onCtl_ctl, List.map_map]
    refine List.map_congr_left fun a _ => ?_
    simp only [Function.comp]; split <;> rfl
  · rw [foldl_disarm_armed]

@[simp] theorem endCue_ctx (o : CueOutcome) (s : State) : (endCue o s).ctl.ctx = none := by
  unfold endCue; split
  · assumption
  · simp
@[simp] theorem endCue_seq (o : CueOutcome) (s : State) : (endCue o s).seq = s.seq := by
  unfold endCue; split <;> simp
@[simp] theorem endCue_meas (o : CueOutcome) (s : State) : (endCue o s).meas = s.meas := by
  unfold endCue; split <;> simp
@[simp] theorem endCue_guard (o : CueOutcome) (s : State) : (endCue o s).guard = s.guard := by
  unfold endCue; split <;> simp
@[simp] theorem endCue_line (o : CueOutcome) (s : State) : (endCue o s).line = s.line := by
  unfold endCue; split <;> simp

/-! ## Trips -/

@[simp] theorem tripCue_seq (o : CueOutcome) (s : State) : (tripCue o s).seq = s.seq := by
  unfold tripCue; split <;> simp
@[simp] theorem tripCue_meas (o : CueOutcome) (s : State) : (tripCue o s).meas = s.meas := by
  unfold tripCue; split <;> simp
@[simp] theorem tripCue_guard (o : CueOutcome) (s : State) : (tripCue o s).guard = s.guard := by
  unfold tripCue; split <;> simp
@[simp] theorem tripCue_line (o : CueOutcome) (s : State) : (tripCue o s).line = s.line := by
  unfold tripCue; split <;> simp
@[simp] theorem tripCue_latched (o : CueOutcome) (s : State) : (tripCue o s).sup.latched = s.sup.latched := by
  unfold tripCue; split <;> simp
@[simp] theorem tripCue_present (o : CueOutcome) (s : State) : (tripCue o s).sup.present = s.sup.present := by
  unfold tripCue; split <;> simp
@[simp] theorem tripCue_readySeen (o : CueOutcome) (s : State) : (tripCue o s).sup.readySeen = s.sup.readySeen := by
  unfold tripCue; split <;> simp
@[simp] theorem tripCue_ctx (o : CueOutcome) (s : State) : (tripCue o s).ctl.ctx = none := by
  unfold tripCue; split
  · assumption
  · simp

@[simp] theorem tripHoming_seq (s : State) : (tripHoming s).seq = s.seq := by unfold tripHoming; split <;> rfl
@[simp] theorem tripHoming_meas (s : State) : (tripHoming s).meas = s.meas := by unfold tripHoming; split <;> rfl
@[simp] theorem tripHoming_guard (s : State) : (tripHoming s).guard = s.guard := by unfold tripHoming; split <;> rfl
@[simp] theorem tripHoming_line (s : State) : (tripHoming s).line = s.line := by unfold tripHoming; split <;> rfl
@[simp] theorem tripHoming_sup (s : State) : (tripHoming s).sup = s.sup := by unfold tripHoming; split <;> rfl
@[simp] theorem tripHoming_peers (s : State) : (tripHoming s).peers = s.peers := by unfold tripHoming; split <;> rfl
@[simp] theorem tripHoming_armed (s : State) : (tripHoming s).ctl.armed = s.ctl.armed := by
  unfold tripHoming; split <;> rfl
@[simp] theorem tripHoming_ctx (s : State) : (tripHoming s).ctl.ctx = s.ctl.ctx := by
  unfold tripHoming; split <;> rfl
@[simp] theorem tripHoming_homing (s : State) : (tripHoming s).ctl.homing = none := by
  unfold tripHoming; split
  · assumption
  · rfl

/-- A trip enters TRIPPED with the timers stopped and the start request NONE (R17, R21). -/
@[simp] theorem enterTripped_seq (o : CueOutcome) (s : State) : (enterTripped o s).seq = seqIn .tripped s.seq := by
  simp [enterTripped]
@[simp] theorem enterTripped_armed (o : CueOutcome) (s : State) : (enterTripped o s).ctl.armed = [] := by
  simp [enterTripped]
@[simp] theorem enterTripped_ctx (o : CueOutcome) (s : State) : (enterTripped o s).ctl.ctx = none := by
  simp [enterTripped]
@[simp] theorem enterTripped_homing (o : CueOutcome) (s : State) : (enterTripped o s).ctl.homing = none := by
  simp [enterTripped]
@[simp] theorem enterTripped_latched (o : CueOutcome) (s : State) :
    (enterTripped o s).sup.latched = s.sup.latched := by
  simp [enterTripped]
@[simp] theorem enterTripped_present (o : CueOutcome) (s : State) :
    (enterTripped o s).sup.present = (presenceIn .tripped s.sup).present := by
  simp [enterTripped]
@[simp] theorem enterTripped_guard (o : CueOutcome) (s : State) : (enterTripped o s).guard = s.guard := by
  simp [enterTripped]
@[simp] theorem enterTripped_line (o : CueOutcome) (s : State) : (enterTripped o s).line = noteChange s.line := by
  simp [enterTripped]
@[simp] theorem enterTripped_meas (o : CueOutcome) (s : State) :
    (enterTripped o s).meas = (setAxis .tripped s).meas := by
  simp [enterTripped]

/-! ## Demands and sets -/

@[simp] theorem latch_seq (c : Condition) (s : State) : (latch c s).seq = s.seq := rfl
@[simp] theorem latch_ctl (c : Condition) (s : State) : (latch c s).ctl = s.ctl := rfl
@[simp] theorem latch_gen (c : Condition) (s : State) : (latch c s).gen = s.gen := rfl
@[simp] theorem latch_meas (c : Condition) (s : State) : (latch c s).meas = s.meas := rfl
@[simp] theorem latch_latched (c : Condition) (s : State) :
    (latch c s).sup.latched = insertCondition c s.sup.latched := rfl

/-- Membership of a set joined by a condition. -/
@[simp] theorem mem_insertCondition (c d : Condition) (l : List Condition) :
    d ∈ insertCondition c l ↔ d = c ∨ d ∈ l := by
  have : d ∈ allConditions := by cases d <;> decide
  simp [insertCondition, conditionsWhere, this]

@[simp] theorem mem_removeCondition (c d : Condition) (l : List Condition) :
    d ∈ removeCondition c l ↔ d ∈ l ∧ d ≠ c := by
  simp [removeCondition]

@[simp] theorem enterStopping_axis (k : StopKind) (d : SetDest) (s : State) :
    (enterStopping k d s).seq.axis = .stopping ∧ (enterStopping k d s).seq.stopKind = k ∧
      (enterStopping k d s).seq.dest = d := by
  simp [enterStopping]

/-- With BRAKE_FB reading released, a set waits in SETTING toward its destination (R16). -/
theorem enterSetting_waits (d : SetDest) (s : State) (h : s.inp.brakeReleased = true) :
    enterSetting d s =
      (setAxis .setting s).onSeq fun q => { q with dest := d, brake := some (setAxis .setting s).store.live.brakeTime } := by
  simp [enterSetting, h]

end Sys2Proof.Machine
end

