-- ==== Sys2Proof/Laws/Finish.lean ====
section
/-! SUPPORT. What ends a command: `finish` builds the STATUS that is owed and settles the rest timer, and changes nothing
else; a settled state is left as it is. -/

namespace Sys2Proof.Machine

@[simp] theorem buildStatus_ctl (s : State) : (buildStatus s).ctl = s.ctl := by
  unfold buildStatus; split <;> rfl
@[simp] theorem buildStatus_sup (s : State) : (buildStatus s).sup = s.sup := by
  unfold buildStatus; split <;> rfl
@[simp] theorem buildStatus_meas (s : State) : (buildStatus s).meas = s.meas := by
  unfold buildStatus; split <;> rfl
@[simp] theorem buildStatus_peers (s : State) : (buildStatus s).peers = s.peers := by
  unfold buildStatus; split <;> rfl
@[simp] theorem buildStatus_guard (s : State) : (buildStatus s).guard = s.guard := by
  unfold buildStatus; split <;> rfl
@[simp] theorem buildStatus_inp (s : State) : (buildStatus s).inp = s.inp := by
  unfold buildStatus; split <;> rfl
@[simp] theorem buildStatus_store (s : State) : (buildStatus s).store = s.store := by
  unfold buildStatus; split <;> rfl
@[simp] theorem buildStatus_table (s : State) : (buildStatus s).table = s.table := by
  unfold buildStatus; split <;> rfl
@[simp] theorem buildStatus_station (s : State) : (buildStatus s).station = s.station := by
  unfold buildStatus; split <;> rfl
@[simp] theorem buildStatus_held (s : State) : (buildStatus s).held = s.held := by
  unfold buildStatus; split <;> rfl
@[simp] theorem buildStatus_pending (s : State) : (buildStatus s).pending = s.pending := by
  unfold buildStatus; split <;> rfl
@[simp] theorem buildStatus_seq (s : State) : (buildStatus s).seq = s.seq := by
  unfold buildStatus; split <;> rfl
@[simp] theorem buildStatus_marks (s : State) : (buildStatus s).line.marks = s.line.marks := by
  unfold buildStatus; split <;> rfl
@[simp] theorem buildStatus_markLost (s : State) : (buildStatus s).line.markLost = s.line.markLost := by
  unfold buildStatus; split <;> rfl
@[simp] theorem buildStatus_replies (s : State) : (buildStatus s).line.replies = s.line.replies := by
  unfold buildStatus; split <;> rfl
@[simp] theorem buildStatus_announce (s : State) : (buildStatus s).line.announce = s.line.announce := by
  unfold buildStatus; split <;> rfl
@[simp] theorem buildStatus_seqCount (s : State) : (buildStatus s).line.seqCount = s.line.seqCount := by
  unfold buildStatus; split <;> rfl
@[simp] theorem buildStatus_backoff (s : State) : (buildStatus s).line.backoff = s.line.backoff := by
  unfold buildStatus; split <;> rfl
@[simp] theorem buildStatus_gen_s (s : State) : (buildStatus s).gen.s = s.gen.s := by
  unfold buildStatus; split <;> rfl
@[simp] theorem buildStatus_gen_v (s : State) : (buildStatus s).gen.v = s.gen.v := by
  unfold buildStatus; split <;> rfl
@[simp] theorem buildStatus_gen_stopPoint (s : State) : (buildStatus s).gen.stopPoint = s.gen.stopPoint := by
  unfold buildStatus; split <;> rfl
@[simp] theorem buildStatus_gen_progress (s : State) : (buildStatus s).gen.progress = s.gen.progress := by
  unfold buildStatus; split <;> rfl
@[simp] theorem buildStatus_gen_fired (s : State) : (buildStatus s).gen.fired = s.gen.fired := by
  unfold buildStatus; split <;> rfl
@[simp] theorem buildStatus_gen_homing (s : State) : (buildStatus s).gen.homing = s.gen.homing := by
  unfold buildStatus; split <;> rfl
@[simp] theorem buildStatus_gen_pub (s : State) : (buildStatus s).gen.pub = s.gen.pub := by
  unfold buildStatus; split <;> rfl

@[simp] theorem finish_ctl (s : State) : (finish s).ctl = s.ctl :=
  iterate_keeps (·.ctl) buildStatus_ctl _ (restFollow s)
@[simp] theorem finish_sup (s : State) : (finish s).sup = s.sup :=
  iterate_keeps (·.sup) buildStatus_sup _ (restFollow s)
@[simp] theorem finish_meas (s : State) : (finish s).meas = s.meas :=
  iterate_keeps (·.meas) buildStatus_meas _ (restFollow s)
@[simp] theorem finish_peers (s : State) : (finish s).peers = s.peers :=
  iterate_keeps (·.peers) buildStatus_peers _ (restFollow s)
@[simp] theorem finish_guard (s : State) : (finish s).guard = s.guard :=
  iterate_keeps (·.guard) buildStatus_guard _ (restFollow s)
@[simp] theorem finish_inp (s : State) : (finish s).inp = s.inp :=
  iterate_keeps (·.inp) buildStatus_inp _ (restFollow s)
@[simp] theorem finish_store (s : State) : (finish s).store = s.store :=
  iterate_keeps (·.store) buildStatus_store _ (restFollow s)
@[simp] theorem finish_table (s : State) : (finish s).table = s.table :=
  iterate_keeps (·.table) buildStatus_table _ (restFollow s)
@[simp] theorem finish_station (s : State) : (finish s).station = s.station :=
  iterate_keeps (·.station) buildStatus_station _ (restFollow s)
@[simp] theorem finish_held (s : State) : (finish s).held = s.held :=
  iterate_keeps (·.held) buildStatus_held _ (restFollow s)
@[simp] theorem finish_pending (s : State) : (finish s).pending = s.pending :=
  iterate_keeps (·.pending) buildStatus_pending _ (restFollow s)
@[simp] theorem finish_seq (s : State) : (finish s).seq = (restFollow s).seq :=
  iterate_keeps (·.seq) buildStatus_seq _ (restFollow s)
@[simp] theorem finish_marks (s : State) : (finish s).line.marks = s.line.marks :=
  iterate_keeps (·.line.marks) buildStatus_marks _ (restFollow s)
@[simp] theorem finish_markLost (s : State) : (finish s).line.markLost = s.line.markLost :=
  iterate_keeps (·.line.markLost) buildStatus_markLost _ (restFollow s)
@[simp] theorem finish_replies (s : State) : (finish s).line.replies = s.line.replies :=
  iterate_keeps (·.line.replies) buildStatus_replies _ (restFollow s)
@[simp] theorem finish_announce (s : State) : (finish s).line.announce = s.line.announce :=
  iterate_keeps (·.line.announce) buildStatus_announce _ (restFollow s)
@[simp] theorem finish_seqCount (s : State) : (finish s).line.seqCount = s.line.seqCount :=
  iterate_keeps (·.line.seqCount) buildStatus_seqCount _ (restFollow s)
@[simp] theorem finish_backoff (s : State) : (finish s).line.backoff = s.line.backoff :=
  iterate_keeps (·.line.backoff) buildStatus_backoff _ (restFollow s)
@[simp] theorem finish_gen_s (s : State) : (finish s).gen.s = s.gen.s :=
  iterate_keeps (·.gen.s) buildStatus_gen_s _ (restFollow s)
@[simp] theorem finish_gen_v (s : State) : (finish s).gen.v = s.gen.v :=
  iterate_keeps (·.gen.v) buildStatus_gen_v _ (restFollow s)
@[simp] theorem finish_gen_stopPoint (s : State) : (finish s).gen.stopPoint = s.gen.stopPoint :=
  iterate_keeps (·.gen.stopPoint) buildStatus_gen_stopPoint _ (restFollow s)
@[simp] theorem finish_gen_progress (s : State) : (finish s).gen.progress = s.gen.progress :=
  iterate_keeps (·.gen.progress) buildStatus_gen_progress _ (restFollow s)
@[simp] theorem finish_gen_fired (s : State) : (finish s).gen.fired = s.gen.fired :=
  iterate_keeps (·.gen.fired) buildStatus_gen_fired _ (restFollow s)
@[simp] theorem finish_gen_homing (s : State) : (finish s).gen.homing = s.gen.homing :=
  iterate_keeps (·.gen.homing) buildStatus_gen_homing _ (restFollow s)
@[simp] theorem finish_gen_pub (s : State) : (finish s).gen.pub = s.gen.pub :=
  iterate_keeps (·.gen.pub) buildStatus_gen_pub _ (restFollow s)

@[simp] theorem finish_path (s : State) : path (finish s).gen = path s.gen := by simp [path]
@[simp] theorem finish_driveEn (s : State) : driveEn (finish s) = driveEn s := by
  simp [driveEn, trippedHolding, isLatched, restFollow]
@[simp] theorem finish_brakeRel (s : State) : brakeRel (finish s) = brakeRel s := by simp [brakeRel, restFollow]
@[simp] theorem restFollow_axis (s : State) : (restFollow s).seq.axis = s.seq.axis := rfl
@[simp] theorem restFollow_startReq (s : State) : (restFollow s).seq.startReq = s.seq.startReq := rfl
@[simp] theorem restFollow_dest (s : State) : (restFollow s).seq.dest = s.seq.dest := rfl
@[simp] theorem restFollow_stopKind (s : State) : (restFollow s).seq.stopKind = s.seq.stopKind := rfl
@[simp] theorem restFollow_wake (s : State) : (restFollow s).seq.wake = s.seq.wake := rfl
@[simp] theorem restFollow_brake (s : State) : (restFollow s).seq.brake = s.seq.brake := rfl
@[simp] theorem restFollow_hold (s : State) : (restFollow s).seq.hold = s.seq.hold := rfl

/-- The rest timer after a command (R5). -/
theorem restFollow_rest (s : State) :
    (restFollow s).seq.rest =
      if restConditions s then
        if s.store.live.restCount = 0 then none else some (s.seq.rest.getD (s.store.live.restCount * 5000))
      else none := rfl

/-- An outcome that is a next state has a property when the state has. -/
@[simp] theorem answers_next (t : State) (p : State → Prop) : Answers (.next t) p ↔ p t :=
  ⟨fun ⟨_, h, hp⟩ => by cases h; exact hp, fun h => ⟨t, rfl, h⟩⟩

/-- Outside PARKED the rest timer is stopped (R5). -/
theorem restFollow_stopped (s : State) (h : s.seq.axis ≠ .parked) : (restFollow s).seq.rest = none := by
  simp [restFollow_rest, restConditions, h]

/-- A state is settled when no STATUS is owed and the rest timer is as R5 says. -/
theorem settled_iff (s : State) :
    Settled s ↔ s.line.statusDue = 0 ∧ (restFollow s).seq.rest = s.seq.rest := by
  constructor
  · rintro ⟨a, b⟩; exact ⟨a, congrArg (·.seq.rest) b⟩
  · rintro ⟨a, b⟩
    refine ⟨a, ?_⟩
    rw [restFollow_rest] at b
    simp only [restFollow, State.onSeq, b]

/-- A settled state is left as it is. -/
theorem finish_settled {s : State} (h : Settled s) : finish s = s := by
  have hn : s.line.statusDue = 0 := h.1
  rw [finish, h.2, statusIfDue, hn]
  simp only [Function.iterate_zero, id, State.onLine]
  rw [← hn]

/-- What `Settled` reads: nothing but the sequencer, the armed list, whether a cue runs, and the rest count. -/
theorem settled_of {s t : State} (hs : Settled s) (h1 : t.line.statusDue = s.line.statusDue) (h2 : t.seq = s.seq)
    (h3 : t.ctl.armed.isEmpty = s.ctl.armed.isEmpty) (h4 : t.ctl.ctx.isNone = s.ctl.ctx.isNone)
    (h5 : t.store.live = s.store.live) : Settled t := by
  rw [settled_iff] at *
  simp only [restFollow_rest, restConditions, h1, h2, h3, h4, h5] at *
  exact hs

/-- A command that leaves all of that alone ends where it stands. -/
theorem finish_of {s t : State} (hs : Settled s) (h1 : t.line.statusDue = s.line.statusDue) (h2 : t.seq = s.seq)
    (h3 : t.ctl.armed.isEmpty = s.ctl.armed.isEmpty) (h4 : t.ctl.ctx.isNone = s.ctl.ctx.isNone)
    (h5 : t.store.live = s.store.live) : finish t = t :=
  finish_settled (settled_of hs h1 h2 h3 h4 h5)

end Sys2Proof.Machine
end

