-- ==== Sys2Proof/Laws/Receive.lean ====
section
/-! SUPPORT. The line byte by byte: what is sent is read back, what is read is handed on as the command it spells, and
what is stored passes its check. -/

namespace Sys2Proof.Machine

/-! ## Bytes on the line -/

/-- A byte takes 10 bit times (R153). -/
@[simp] theorem serialByte_length (b : Byte) : (serialByte b).length = 10 := by simp [serialByte]

/-- A frame of n bytes takes 10 n bit times (R153). -/
@[simp] theorem serialFrame_length (raw : List Byte) : (serialFrame raw).length = 10 * raw.length := by
  induction raw with
  | nil => rfl
  | cons b raw ih => simp only [serialFrame, List.flatMap_cons, List.length_append] at *; simp [ih]; omega

/-- The eight data bits of a byte give it back (R153). -/
theorem byteOfBits_serial (b : Byte) :
    byteOfBits [b.getLsbD 0, b.getLsbD 1, b.getLsbD 2, b.getLsbD 3, b.getLsbD 4, b.getLsbD 5, b.getLsbD 6,
      b.getLsbD 7] = b := by
  revert b; decide +kernel

/-- A receiver reads the bytes that were sent (R153). -/
theorem readSerial_serialFrame (raw : List Byte) : readSerial (serialFrame raw) = some raw := by
  induction raw with
  | nil => rfl
  | cons b raw ih =>
    have h : serialFrame (b :: raw) = .start :: .data (b.getLsbD 0) :: .data (b.getLsbD 1) :: .data (b.getLsbD 2) ::
        .data (b.getLsbD 3) :: .data (b.getLsbD 4) :: .data (b.getLsbD 5) :: .data (b.getLsbD 6) ::
        .data (b.getLsbD 7) :: .stop :: serialFrame raw := rfl
    rw [h]; simp only [readSerial, ih, Option.map_some, byteOfBits_serial]

/-- A detail that fits its two bytes is sent as it is (R165). -/
theorem detail16_toNat (n : Nat) (h : n < 65536) : (detail16 n).toNat = n := by
  simp [detail16, h, Nat.mod_eq_of_lt h]

/-! ## The check -/

/-- One shift of the check register (R49). -/
def checkShift (r : Check) : Check := if r.msb then (r <<< 1) ^^^ 0x8005#16 else r <<< 1

/-- One byte taken into the check register: combined into its upper eight bits, then eight shifts (R49). -/
def checkByte (r : Check) (b : Byte) : Check := checkShift^[8] (r ^^^ (b.zeroExtend 16 <<< 8))

theorem shiftThen_eq (next : Check → Check) (n : Nat) (r : Check) : shiftThen next n r = next (checkShift^[n] r) := by
  induction n generalizing r with
  | zero => rfl
  | succ n ih =>
    rw [Function.iterate_succ_apply, ← ih]
    simp only [shiftThen, checkShift]; split <;> rfl

/-- The check is the bytes taken one after another into a register that starts at FFFFh (R49, R153). -/
theorem check16_eq_foldl (bytes : List Byte) : check16 bytes = bytes.foldl checkByte 0xFFFF#16 := by
  unfold check16
  generalize 0xFFFF#16 = r
  induction bytes generalizing r with
  | nil => rfl
  | cons b rest ih => rw [checkBytes, shiftThen_eq, ih]; rfl

/-! ## Frames received -/

/-- A frame command: one that the port hands on (R159). -/
def isFrame : Instr → Bool
  | .statusFrame _ _ | .markFrame _ _ _ | .standby _ _ _ _ | .go _ _ | .cancel _ _ _ | .stop _ _ | .enable _ _ _ _
  | .clear _ _ | .home _ | .cueload _ _ | .cuedrop _ _ | .cueask _ _ _ | .save _ | .setup _ _ _ _
  | .linereset _ _ => true
  | _ => false

/-- A frame handed on runs as its command (R159). -/
theorem handOn_exec (i : Instr) (s : State) (h : isFrame i = true) : handOn i s = exec i s := by
  cases i <;> first | rfl | cases h

/-- What is read from a payload is a frame command. -/
theorem readFrame_isFrame {kind : Nat} {h : Hdr} {payload : List Byte} {i : Instr}
    (e : readFrame kind h payload = some i) : isFrame i = true := by
  unfold readFrame setOnly noFields readCue at e
  repeat' first
    | split at e
    | (dsimp only at e; split at e)
  all_goals first
    | (cases e; done)
    | (cases e; rfl)
    | (simp only [Option.map_eq_some_iff] at e; obtain ⟨_, _, rfl⟩ := e; rfl)

/-- What the port receives is handed on as the command it spells. -/
theorem receivedFrame_handOn {s : State} {raw : List Byte} {i : Instr} (e : receivedFrame s raw = some i) :
    handOn i s = exec i s := by
  refine handOn_exec i s ?_
  unfold receivedFrame at e
  split at e
  · split at e
    · exact readFrame_isFrame e
    · cases e
  · cases e

/-! ## Stored blocks -/

/-- A block that a SETUP writes passes its check (R169). -/
@[simp] theorem writtenSetup_good (image : Setup) (revision : BitVec 16) : (writtenSetup image revision).good = true := by
  simp [NvSetup.good, writtenSetup]

@[simp] theorem writtenCues_stored (records : List CueDef) : (writtenCues records).stored = records :=
  List.take_length

/-- A store that a SAVE leaves passes its check (R170). -/
@[simp] theorem writtenCues_good (records : List CueDef) : (writtenCues records).good = true := by
  rw [NvCues.good, writtenCues_stored]
  simp [writtenCues]

/-- The blocks before anything has written them carry good checks (logs 4, 54). -/
theorem initial_written :
    Stores.initial.nvSetup = writtenSetup Setup.default 0 ∧ Stores.initial.nvCues = writtenCues [] := by
  decide +kernel

end Sys2Proof.Machine
end

