-- ==== Sys2Proof/Laws/Release.lean ====
section
/-! SUPPORT. Trips, retakes, releases and ends of cues as one record each, for states in which they take the plain path. -/

namespace Sys2Proof.Machine

/-! ## Ends of cues -/

/-- Steps 2 to 4 of an end as one record (R73). -/
theorem removeContext_eq (x : CueContext) (o : CueOutcome) (r : Nat) (s : State) :
    removeContext x o r s =
      { s with
        ctl := { s.ctl with ctx := none, lastEvent := some (.ended x.record.cue.number o r) }
        gen := { s.gen with fired := [] }
        sup := { s.sup with recovery := none }
        peers := releasePeers x.record.cue.number s.peers } := rfl

/-- With no follow cue PENDING, an end that breaks chains only removes the context (R77). -/
theorem endCue_plain {s : State} {x : CueContext} {o : CueOutcome} (h : s.ctl.ctx = some x) (hp : pendingCues s = [])
    (ho : runsOn o = false) : endCue o s = removeContext x o (remainingMm s x) s := by
  have : pendingCues (removeContext x o (remainingMm s x) s) = [] := by
    simpa [pendingCues, removeContext, releaseCue, recordEvent] using hp
  simp [endCue, h, moveChains, ho, this]

/-! ## Trips -/

/-- Several conditions latched one after another (R147). -/
theorem foldl_latch (l : List Condition) (s : State) :
    (l.foldl (fun t d => latch d t) s) =
      s.onSup fun p => { p with latched := l.foldl (fun a d => insertCondition d a) p.latched } := by
  induction l generalizing s with
  | nil => rfl
  | cons c l ih => simp only [List.foldl_cons, ih]; rfl

@[simp] theorem enterTripped_path (o : CueOutcome) (s : State) : path (enterTripped o s).gen = path s.gen := by
  simp only [enterTripped, tripHoming]
  split
  · simp [tripCue]; split <;> simp [path, removeContext_eq]
  · simp [tripCue, closeHoming, recordEvent]; split <;> simp [path, removeContext_eq]

/-- What a trip leaves alone. -/
theorem enterTripped_frame (o : CueOutcome) (s : State) : TripFrame s (enterTripped o s) := by
  simp [TripFrame, noteChange]

@[simp] theorem finish_tripFrame (s t : State) : TripFrame s (finish t) ↔ TripFrame s t := by simp [TripFrame]
@[simp] theorem finish_endedByTrip (c : Condition) (s t : State) :
    EndedByTrip c s (finish t) ↔ EndedByTrip c s t := by simp [EndedByTrip]

/-- With nothing armed and no homing, the cue ended by a trip is the last event (R79). -/
theorem enterTripped_lastEvent (o : CueOutcome) (s : State) (x : CueContext) (h : s.ctl.ctx = some x)
    (ha : s.ctl.armed = []) (hh : s.ctl.homing = none) :
    (enterTripped o s).ctl.lastEvent =
      some (.ended x.record.cue.number (tripOutcome x o) (remainingMm s x)) := by
  simp [enterTripped, tripCue, h, disarmAll, removeContext_eq, ha, tripHoming, hh, remainingMm]

/-- A trip by a condition ends the cue FAULT naming it. -/
theorem enterTripped_ended (c : Condition) (s : State) : EndedByTrip c s (enterTripped (.fault c) s) := by
  intro x hx hr ha hh
  rw [enterTripped_lastEvent _ s x hx ha hh]
  simp [tripOutcome, hr]

theorem setAxis_recovery (a : AxisState) (s : State) (h : s.sup.recovery = none) :
    (setAxis a s).sup.recovery = none := by
  simp [setAxis, dwellFollow, presenceIn, h]

theorem enterTripped_recovery (o : CueOutcome) (s : State) (h : s.sup.recovery = none) :
    (enterTripped o s).sup.recovery = none := by
  simp [enterTripped, tripCue]; split <;> simp [setAxis_recovery, h, removeContext_eq]

/-- A trip turns the drive off and clears the ready-seen flag, unless BRAKE_SET keeps it holding (R2, R142). -/
theorem enterTripped_driveOff (o : CueOutcome) (s : State) (h : trippedHolding s = false ∨ s.inp.loopOpen = true) :
    DriveOff (enterTripped o s) := by
  have hd : driveEn (setAxis .tripped s) = false := by
    simp [driveEn, trippedHolding, isLatched] at h ⊢
    rcases h with h | h
    · by_cases hl : s.inp.loopOpen <;> simp_all
    · simp [h]
  have hz : dutyAtZero ((s.onSeq (seqIn .tripped)).onSup (presenceIn .tripped)) = true := by
    have : driveEn ((s.onSeq (seqIn .tripped)).onSup (presenceIn .tripped)) = false := by
      simpa [driveEn, trippedHolding, isLatched, presenceIn] using hd
    simp [dutyAtZero, this]
  have hduty := setAxis_duty .tripped s
  simp only [hz] at hduty
  refine ⟨?_, ?_, ?_, ?_⟩
  · have hi : (enterTripped o s).inp = s.inp := ((base_eq_iff _ _).1 (enterTripped_base o s)).2.2.2.2.1
    have : driveEn (enterTripped o s) = driveEn (setAxis .tripped s) := by
      simp [driveEn, trippedHolding, isLatched, hi]
    rw [this, hd]
  · simp [hduty.1]
  · simp [hduty.2]
  · have hr : (setAxis .tripped s).sup.readySeen = (driveEn (setAxis .tripped s) && s.sup.readySeen) := by
      simp [setAxis, followDrive_readySeen, presenceIn]
    simp [enterTripped, hr, hd]

/-! ## Retakes and releases -/

/-- Marks handed to the port change the port only. -/
theorem foldl_queueMark (l : List Nat) (n : Nat) (u : State) :
    l.foldl (queueMark n) u = { u with line := (l.foldl (queueMark n) u).line } := by
  induction l generalizing u with
  | nil => rfl
  | cons a l ih => rw [List.foldl_cons, ih]; simp [queueMark, State.onLine]

/-- What the port then holds depends on the port only. -/
theorem foldl_queueMark_line (l : List Nat) (n : Nat) (u v : State) (h : u.line = v.line) :
    (l.foldl (queueMark n) u).line = (l.foldl (queueMark n) v).line := by
  induction l generalizing u v with
  | nil => exact h
  | cons a l ih => rw [List.foldl_cons, List.foldl_cons]; apply ih; simp [queueMark, h]

/-- A retake with a move fixed (R8, R25, R41). -/
theorem retake_moving (s : State) (x : CueContext) (m : MoveInputs) (hx : s.ctl.ctx = some x) (hm : x.move = some m) :
    let new := firedBy m.dir s.gen.s (retakeFor m s.meas.measured) x.record.cue.marks s.gen.fired
    retake s =
      { s with
        gen := { s.gen with s := retakeFor m s.meas.measured, v := 0, fired := joinFired s.gen.fired new }
        line := (new.foldl (queueMark x.record.cue.number) s).line } := by
  simp [retake, fireMarks, hx, hm, retakePoint]
  generalize (firedBy _ _ _ _ _) = l
  rw [foldl_queueMark, foldl_queueMark_line _ _ _ s (by simp)]
  simp [State.onGen]

/-- A retake with no move fixed takes the measured position (R8). -/
theorem retake_waiting (s : State) (hx : ∀ x ∈ s.ctl.ctx, x.move = none) :
    retake s = { s with gen := { s.gen with s := s.meas.measured, v := 0 } } := by
  rcases h : s.ctl.ctx with _ | x
  · simp [retake, fireMarks, h, retakePoint, State.onGen]
  · have := hx x (by simp [h])
    simp [retake, fireMarks, h, this, retakePoint, State.onGen]

@[simp] theorem retake_store (s : State) : (retake s).store = s.store :=
  ((base_eq_iff _ _).1 (retake_base s)).2.2.2.2.2.2.1
@[simp] theorem retake_inp (s : State) : (retake s).inp = s.inp := ((base_eq_iff _ _).1 (retake_base s)).2.2.2.2.1
@[simp] theorem retake_sup (s : State) : (retake s).sup = s.sup := by
  simp [retake, fireMarks]; split
  · rfl
  · split
    · rfl
    · generalize (firedBy _ _ _ _ _) = l
      rw [foldl_queueMark]; rfl

/-- With no RECOVER-class condition present, none occurs at a release (R144). -/
theorem releaseOccurrences_none {s : State} (h : ∀ d ∈ s.sup.present, classOf s d ≠ .recover) :
    releaseOccurrences s = [] := by
  simp [releaseOccurrences, conditionsWhere, List.filter_eq_nil_iff, isPresent]
  intro a _ ha
  exact h a ha

/-- A release that neither trips over a condition nor finds the brake released waits in RELEASING (R8). -/
theorem beginRelease_waits {req : StartRequest} {s : State} (hb : s.inp.brakeReleased = false)
    (h : ∀ d ∈ s.sup.present, classOf s d ≠ .recover) :
    beginRelease req s =
      ((setAxis .releasing (retake s)).onSeq fun q =>
        { q with startReq := req, brake := some s.store.live.brakeTime }) := by
  have : releaseOccurrences ((setAxis .releasing (retake s)).onSeq fun q =>
      { q with startReq := req, brake := some s.store.live.brakeTime }) = [] := by
    apply releaseOccurrences_none
    intro d hd
    have hp : d ∈ s.sup.present := by simp [presenceIn] at hd; exact hd.1
    simpa [classOf] using h d hp
  simp only [beginRelease]
  simp at this ⊢
  rw [this]
  simp [hb]

end Sys2Proof.Machine
end

