-- ==== Sys2Proof/Laws/Table.lean ====
section
/-! SUPPORT. The cue table, the reservations of the REPLY queue and the requests that wait: what an insertion, a
completion and the end of a SETUP write leave to be found. -/

namespace Sys2Proof.Machine

/-- An inserted record is found under its number (R50, R56). -/
theorem findCue_insertRecord (r : CueRecord) (t : List CueRecord) :
    findCue (insertRecord r t) r.cue.number = some r := by
  induction t with
  | nil => simp [insertRecord, findCue]
  | cons q t ih =>
    simp only [insertRecord]; split
    · simp [findCue]
    · split
      · simp [findCue]
      · rename_i h1 h2; simp [findCue, Ne.symm h2] at ih ⊢; exact ih

/-- Every other number keeps its record. -/
theorem findCue_insertRecord_other (r : CueRecord) (t : List CueRecord) (k : Nat) (hk : k ≠ r.cue.number) :
    findCue (insertRecord r t) k = findCue t k := by
  induction t with
  | nil => simp [insertRecord, findCue, Ne.symm hk]
  | cons q t ih =>
    simp only [insertRecord]; split
    · simp [findCue, Ne.symm hk]
    · split
      · rename_i h1 h2; simp [findCue, Ne.symm hk, ← h2]
      · rename_i h1 h2; simp only [findCue, List.find?_cons] at ih ⊢; split <;> simp_all

/-- The first reservation of a kind becomes its answer where it stands (R163). -/
theorem fulfil_first (k : RequestKind) (d : Nat) (l₁ : List (Queued ReplyBody)) (e : Queued ReplyBody)
    (l₂ : List (Queued ReplyBody)) (a : Nat) (b : Byte) (he : e.body = .reservation k a b)
    (hn : ∀ q ∈ l₁, ∀ x y, q.body ≠ .reservation k x y) :
    fulfil k d (l₁ ++ e :: l₂) = l₁ ++ { e with body := .reply ⟨a, k, b, .done, d⟩ } :: l₂ := by
  induction l₁ with
  | nil => simp [fulfil, he]
  | cons q l ih =>
    have h1 := hn q (by simp)
    have := ih (fun q hq => hn q (by simp [hq]))
    rcases hq : q.body with _ | _ | ⟨k', x, y⟩
    · simp [fulfil, hq, this]
    · simp [fulfil, hq, this]
    · have : k' ≠ k := fun e => h1 x y (by rw [hq, e])
      simp [fulfil, *]

/-! ## Requests that wait -/

/-- A request that has waited adds one entry to the REPLY queue and leaves the MARK queue and the waiting requests
(R163, R169, R170). -/
theorem takeWaiting_line (r : StoreRequest) (s : State) :
    (takeWaiting r s).line.replies.length = s.line.replies.length + 1 ∧
      (takeWaiting r s).line.marks = s.line.marks ∧ (takeWaiting r s).store.waiting = s.store.waiting := by
  cases r with
  | save h =>
    simp only [takeWaiting, takeSave]
    split <;> simp [acceptSave, reserve, answer, queueReply, State.onStore, State.onLine]
  | setup h i v =>
    simp only [takeWaiting, takeSetup]
    split
    · simp [readKey, answer, queueReply, State.onLine, State.onInp]
    split
    · simp [readKey, answer, queueReply, State.onLine, State.onInp]
    split <;> simp [readKey, acceptSetup, reserve, answer, queueReply, State.onStore, State.onLine, State.onInp]

/-- Acting on the waiting requests moves each of their places into the REPLY queue or keeps it; what is left waits for a
write (R159, R163). -/
theorem drainWaiting_places (l : List StoreRequest) (s : State) :
    let t := drainWaiting l s
    t.line.replies.length + t.store.waiting.length = s.line.replies.length + l.length ∧ t.line.marks = s.line.marks ∧
      (t.store.writing = false → t.store.waiting = []) := by
  induction l generalizing s with
  | nil => exact ⟨rfl, rfl, fun _ => rfl⟩
  | cons r rest ih =>
    obtain ⟨hl, hm, -⟩ := takeWaiting_line r s
    simp only [drainWaiting]
    split
    · rename_i hw
      refine ⟨?_, hm, fun h => ?_⟩
      · simp [State.onStore, hl]; omega
      · simp [State.onStore, hw] at h
    · obtain ⟨h1, h2, h3⟩ := ih (takeWaiting r s)
      exact ⟨by simp only [List.length_cons]; omega, h2.trans hm, h3⟩

end Sys2Proof.Machine
end

