-- ==== Sys2Proof/WellFormed.lean ====
section
/-! DEFINITION. Which operands a frame or an event can carry: the ranges of the fields of R153, R165 and R55.
A command outside these ranges is no frame of the line; `exec` is total on it all the same. -/

namespace Sys2Proof

/-- R153: the sender is 1 to 63 and the addressee 0 to 63. -/
def Hdr.wellFormed (h : Hdr) : Bool :=
  decide (1 ≤ h.sender) && decide (h.sender ≤ 63) && decide (h.addressee ≤ 63)

/-- A number sent in two bytes. -/
def fitsHalf (n : Nat) : Bool := decide (n < 65536)

/-- A number sent in one byte. -/
def fitsByte (n : Nat) : Bool := decide (n < 256)

/-- The length R153 admits for a payload. -/
def payloadFits (p : List Byte) : Bool := decide (p.length ≤ 88)

/-- The marks and members of a CUELOAD are those its counts declare, so that the payload fits a frame (R55). -/
def CueLoad.wellFormed (r : CueLoad) : Bool :=
  decide (r.marks.length ≤ 255) &&
    (match r.group with
      | none => true
      | some g => g.members.all fitsByte && decide (g.members.length ≤ 88))

/-- The operand ranges of every command. -/
def Instr.wellFormed : Instr → Bool
  | .statusFrame h p => h.wellFormed && payloadFits p
  | .markFrame h cue mark => h.wellFormed && fitsHalf cue && fitsByte mark
  | .standby h cue _ w => h.wellFormed && fitsHalf cue && fitsByte w
  | .go h cue => h.wellFormed && fitsHalf cue
  | .cancel h cue _ => h.wellFormed && fitsHalf cue
  | .stop h _ => h.wellFormed
  | .enable h _ ov _ => h.wellFormed && fitsByte ov
  | .clear h _ => h.wellFormed
  | .home h => h.wellFormed
  | .cueload h r => h.wellFormed && r.wellFormed
  | .cuedrop h cue => h.wellFormed && fitsHalf cue
  | .cueask h cue _ => h.wellFormed && fitsHalf cue
  | .save h => h.wellFormed
  | .setup h _ _ _ => h.wellFormed
  | .linereset h _ => h.wellFormed
  | .windowExpiry cue => decide (1 ≤ cue) && decide (cue ≤ 999)
  | .followDelayExpiry cue => decide (1 ≤ cue) && decide (cue ≤ 999)
  | .powerOn => true
  | .supplyDip => true
  | .resetPin => true
  | .powerOnSequence _ => true
  | .saveComplete => true
  | .setupWriteComplete => true
  | .frameDiscarded _ => true
  | .estopLoopOpen => true
  | .estopLoopClosed => true
  | .driveReadyAsserted => true
  | .driveReadyLost => true
  | .driveFaultAsserted => true
  | .driveFaultDeasserted => true
  | .ultimateOpen _ => true
  | .ultimateClosed => true
  | .brakeFbReleased => true
  | .brakeFbSet => true
  | .homeSwEdge _ => true
  | .encoderStep _ => true
  | .profilePeriod => true
  | .pwmBoundary => true
  | .loadConversionComplete _ => true
  | .peerAgeing => true
  | .wakeTimeout => true
  | .brakeReleaseTimeout => true
  | .brakeSetTimeout => true
  | .holdToBrakeExpiry => true
  | .restTimerExpiry => true
  | .lapseTimerExpiry => true
  | .holdLimitExceeded => true
  | .recoveryWaitExceeded => true
  | .dwellExpiry => true
  | .statusTimerExpiry => true
  | .transmitAttempt => true
  | .frameSent => true
  | .attemptFailed => true

end Sys2Proof
end

