-- ==== Sys2Proof/Tests/Slice0.lean ====
section
/-! SUPPORT. Our own tests: the operand checks, the spec's worked examples, one step of each command on a small state, and
for each obligation with hypotheses a state that meets them. -/

-- One theorem is checked after another, so that the memory the kernel's evaluations take stays small.
set_option Elab.async false

namespace Sys2Proof.Tests

open Sys2Proof Sys2Proof.Machine

/-! ## Helpers -/

/-- An outcome is a next state with a property that evaluates. -/
def nextWith (o : Host.Outcome State Fault Refusal) (p : State → Bool) : Bool :=
  match o with
  | .next t => p t
  | .fault _ => false
  | .refused _ => false

/-- Two commands answer the same next state, which is not the state they find. -/
def actsAs (c d : Instr) (s : State) : Bool :=
  nextWith (exec c s) fun t => nextWith (exec d s) fun u => t = u ∧ t ≠ s

/-- An outcome that passes `nextWith` is a next state. -/
theorem next_of {o : Host.Outcome State Fault Refusal} {p : State → Bool} (h : nextWith o p = true) :
    ∃ t, o = .next t := by
  cases o with
  | next t => exact ⟨t, rfl⟩
  | fault _ => exact absurd h (by simp [nextWith])
  | refused _ => exact absurd h (by simp [nextWith])

/-- A console frame to all stations, one to station 9, one from axis 12. -/
def toAll : Hdr := ⟨50, 0, 7⟩
def toNine : Hdr := ⟨50, 9, 7⟩
def fromTwelve : Hdr := ⟨12, 0, 3⟩

/-- The station set of axis 9, and the empty one. -/
def nine : StationSet := 0x200
def nobody : StationSet := 0

/-- A plain cue with a landing flag, a follow cue of station 12, a group cue with station 12. -/
def plainCue : CueDef := ⟨7, 5000, 800, 400, 400, 30, true, [2000], none, none⟩
def followCue : CueDef := ⟨8, 6000, 800, 400, 400, 30, false, [], none, some ⟨12, 42, 2, 1500⟩⟩
def groupCue : CueDef := ⟨9, 6000, 800, 400, 400, 30, false, [], some ⟨3, 64, [9, 12]⟩, none⟩

/-- A part with station 9 in an axis state, its inputs quiet, homed, with enable and the three cues. -/
def at' (a : AxisState) : State :=
  { State.reset with
    held := none
    station := 9
    seq := { Sequencer.reset with axis := a, rest := if a = .parked then some 60000 else none }
    meas := { Measure.reset with referenced := true, measured := 3000000000, offset := 3000000000 }
    gen := { Generator.reset with s := 3000000000 }
    ctl := { CueControl.reset with enableFresh := true, lapse := some 200 }
    table := [takenRecord plainCue, takenRecord followCue, takenRecord groupCue] }

/-- The move of the plain cue from 1000 mm, and its context in a phase. -/
def plainMove : MoveInputs := ⟨1000000000, 5000000000, .up, 4000000000, 800000, 400, 400⟩
def plainContext (p : CuePhase) : CueContext :=
  ⟨takenRecord plainCue, if p = .starting then none else some plainMove, p, 0, 0, none, [], false, false⟩

/-- The part with the plain cue running in an axis state at 3000 mm, 400 mm/s, the brake released. -/
def running (a : AxisState) : State :=
  let s := at' a
  { s with
    gen := { s.gen with v := 400000, progress := 2048 }
    inp := { s.inp with brakeReleased := true, driveReady := true }
    ctl := { s.ctl with ctx := some (plainContext .running) } }

/-- The part with a cue armed. -/
def armedIn (a : AxisState) (e : ArmedCue) : State :=
  let s := at' a
  { s with seq := { s.seq with rest := none }, ctl := { s.ctl with armed := [e] } }

/-- The part with the brake timer running toward a destination. -/
def settingTo (d : SetDest) : State :=
  let s := running .setting
  { s with seq := { s.seq with dest := d, brake := some 300 } }

/-- A peer at rest, heard a moment ago. -/
def peerOf (n : Nat) (c : PeerContents) : Peer := ⟨n, false, [⟨9, true, false⟩], .fresh, 0, some c⟩
def resting (cue : Nat) (phase : Option CuePhase) (armed : List (Nat × Check)) : PeerContents :=
  ⟨.parked, cue, phase, 0, 3500000, 3480000, 3200000, armed⟩

/-! ## Operand checks: a term that each refuses -/

theorem test_wf_sender_zero : (Instr.go ⟨0, 0, 0⟩ 5).wellFormed = false := by decide
theorem test_wf_sender_large : (Instr.save ⟨64, 9, 0⟩).wellFormed = false := by decide
theorem test_wf_addressee_large : (Instr.home ⟨50, 64, 0⟩).wellFormed = false := by decide
theorem test_wf_cue_half : (Instr.cuedrop toNine 65536).wellFormed = false := by decide
theorem test_wf_mark_byte : (Instr.markFrame fromTwelve 42 256).wellFormed = false := by decide
theorem test_wf_window_byte : (Instr.standby toAll 7 nine 256).wellFormed = false := by decide
theorem test_wf_override_byte : (Instr.enable toAll nine 256 0).wellFormed = false := by decide
theorem test_wf_payload_long : (Instr.statusFrame fromTwelve (List.replicate 89 0)).wellFormed = false := by decide
theorem test_wf_member_byte :
    (Instr.cueload toNine ⟨some 1, none, none, none, none, none, none, none, [], some ⟨none, none, none, [256]⟩, none,
      true⟩).wellFormed = false := by decide
theorem test_wf_marks_long :
    (Instr.cueload toNine ⟨some 1, none, none, none, none, none, none, none, List.replicate 256 0, none, none,
      true⟩).wellFormed = false := by decide +kernel
theorem test_wf_window_expiry_range : (Instr.windowExpiry 1000).wellFormed = false := by decide
theorem test_wf_delay_expiry_zero : (Instr.followDelayExpiry 0).wellFormed = false := by decide
theorem test_wf_good : (Instr.standby toAll 7 nine 255).wellFormed = true := by decide

/-! ## Worked examples of the spec -/

/-- R28: at D = 400 and v = 800,000 the stopping distance is 799.6 mm. -/
theorem test_stopping_distance : stoppingDistance 800000 400 = 799600000 := by decide
/-- 6.10 step 5: Vg at progress 48, 56, 63 and 64 with skew 64 and pmin 0. -/
theorem test_pacing :
    pacingVelocity 800000 64 48 (some 0) = 200000 ∧ pacingVelocity 800000 64 56 (some 0) = 100000 ∧
      pacingVelocity 800000 64 63 (some 0) = 12500 ∧ pacingVelocity 800000 64 64 (some 0) = 0 := by decide
/-- 6.10 step 8: a lead of 10 under skew 64. -/
theorem test_pacing_lead_ten : pacingVelocity 800000 64 2010 (some 2000) = 675000 := by decide
/-- R43: the duty at 0, full scale and minus full scale. -/
theorem test_duty : dutyOf Setup.default 0 = 2048 ∧ dutyOf Setup.default 2000000 = 4095 ∧
    dutyOf Setup.default (-2000000) = 1 := by decide
/-- R111: the occupancy of the worked peer under a margin of 250 mm. -/
theorem test_occupancy : occupancy ⟨12, 0, 4000, 0, 40000, 250⟩ (some (peerOf 12 (resting 0 none []))) =
    (2950000, 3750000) := by decide
/-- R113: a FRESH peer all of whose positions lie above 4250 mm leaves the rule of band 0 to 4000 inactive. -/
theorem test_rule_inactive :
    ruleActive [peerOf 12 { resting 0 none [] with setPoint := 4250001, measured := 4300000, stopPoint := 4260000 }]
      ⟨12, 0, 4000, 0, 40000, 250⟩ = false := by decide
/-- The rule of 7.8: soft limits 200 to 18,000 mm, widened own band 4,750 to 9,250 mm. -/
def edgeSetup : Setup :=
  { Setup.default with
    softHigh := 18000
    nRules := 1
    rules := Vector.ofFn fun i : Fin 8 => if i = 0 then ⟨14, 0, 4000, 5000, 9000, 250⟩ else ClearanceRule.default }
/-- 7.8 steps 1 and 5: an axis on its way DOWN from 13,000 to 3,000 mm is bounded from outside at 12,000 mm; inside the
band it may escape downward. A cue that starts on the edge may too (R115). -/
theorem test_envelope_edge :
    envelopeOf edgeSetup [] 12000000000 (some 3000000000) (some 13000000000) = (9250000000, 18000000000) ∧
      envelopeOf edgeSetup [] 7000000000 (some 3000000000) (some 13000000000) = (3000000000, 7000000000) ∧
      envelopeOf edgeSetup [] 9250000000 (some 3000000000) (some 9250000000) = (3000000000, 9250000000) ∧
      envelopeOf edgeSetup [] 9250000000 (some 3000000000) none = (3000000000, 9250000000) := by decide +kernel
/-- On the edge the axis from outside is held as in 7.8 step 2, or escapes as R115 says, by the free choice. -/
theorem test_envelope_held :
    contribute ⟨14, 0, 4000, 5000, 9000, 250⟩ 9250000000 (some 3000000000) (some 13000000000) (200000000, 18000000000) =
      if Config.edgeHolds then (9250000000, 18000000000) else (3000000000, 9250000000) := by
  have below : heldFromBelow ⟨14, 0, 4000, 5000, 9000, 250⟩ 9250000000 (some 3000000000) (some 13000000000) = false := by
    decide +kernel
  have above : heldFromAbove ⟨14, 0, 4000, 5000, 9000, 250⟩ 9250000000 (some 3000000000) (some 13000000000) =
      Config.edgeHolds := Bool.true_and _
  rw [contribute, below, above]
  cases Config.edgeHolds <;> decide +kernel
/-- R49: the string of cue 7, group 3, skew 64, members 11 to 13. -/
theorem test_signature_bytes : signatureBytes 7 ⟨3, 64, [11, 12, 13]⟩ = [0, 7, 3, 0, 0x40, 3, 0x0B, 0x0C, 0x0D] := by
  decide
/-- R49: the register after one byte 00h, worked out by hand: FF00h is shifted eight times with 8005h joined at each
bit shifted out. -/
theorem test_check_step : checkShift 0xFF00 = 0x7E05 ∧ checkShift 0x7E05 = 0xFC0A := by decide
/-- R156: station 9 waits 36 bit times after its first failure and 548 after its third. -/
theorem test_backoff : backoffOf 9 1 = 36 ∧ backoffOf 9 3 = 548 := by decide
theorem test_remaining :
    remainingMm { at' .moving with gen := { Generator.reset with s := 9437600000 } }
      { plainContext .running with record := takenRecord { plainCue with target := 6000 } } = 3437 := by decide +kernel
/-- R156, 10.1: the wire bytes of a MARK are 7 bytes and its payload. -/
theorem test_wire_length : (wireFrame 2 9 0 0 (markPayload ⟨42, 2⟩)).length = 10 := by decide
/-- R165: a STATUS as it is sent is read back by a peer. -/
theorem test_status_read_back :
    (parseStatus (statusPayload (statusOf (running .moving)))).map (fun c => (c.axis, c.cue, c.progress)) =
      some (.moving, 7, 2048) := by decide +kernel

/-! ## One step of each command -/

/-- The part with every block at its reset values and a reset applied; the part running with three cues armed. -/
def armedAll : State :=
  let s := at' .parked
  { s with
    seq := { s.seq with rest := none }
    peers := [{ peerOf 12 (resting 0 none [(9, signatureOf groupCue)]) with holdings := [⟨8, false, true⟩, ⟨9, true, false⟩] }]
    ctl := { s.ctl with armed := [⟨7, none, none⟩, ⟨8, some 3000, some .waiting⟩, ⟨9, none, none⟩] } }

/-- A part tripped by a condition that has gone. -/
def trippedBy (c : Condition) : State :=
  let s := at' .tripped
  { s with sup := { s.sup with latched := [c] } }

/-- A part waking for a cue that has started. -/
def wakingForCue : State :=
  let s := at' .waking
  { s with
    seq := { s.seq with startReq := .cue, wake := some 2000 }
    ctl := { s.ctl with ctx := some (plainContext .starting) } }

/-- The brake of a STARTING cue commanded released. -/
def releasingCue : State :=
  let s := at' .releasing
  { s with
    seq := { s.seq with startReq := .cue, brake := some 300 }
    ctl := { s.ctl with ctx := some (plainContext .starting) } }

/-- A running cue in RECOVERING, its conditions gone, its dwell running. -/
def recoveringCue : State :=
  let s := running .recovering
  { s with
    gen := { s.gen with v := 0 }
    inp := { s.inp with brakeReleased := false }
    sup := { s.sup with recovery := some ⟨[.slack], some 2000, 0⟩ } }

/-- The bytes of a STATUS: axis state, cue, phase, progress in steps of 256; at 3500 mm, stop point 3600 mm. -/
def statusBytes (axis cue phase progress : Byte) : List Byte :=
  [axis, 0, 0, cue, phase, progress, 0, 0, 0x35, 0x67, 0xE0, 0, 0x35, 0x67, 0xE0, 0, 0x36, 0xEE, 0x80, 0, 0, 0, 0, 0, 0,
    0, 0, 100, 1, 0, 0] ++ [0, 0, 0, 0, 0, 0, 0] ++ [0]

/-- A STATUS of an axis MOVING with cue 42 at progress 2048. -/
def movingBytes : List Byte := statusBytes 6 42 2 8

/-- A CUELOAD of cue 20 that passes every test, and one with its target below the soft limit. -/
def goodLoad : CueLoad :=
  ⟨some 20, some 4000, some 800, some 400, some 300, some 30, some false, some 1, [3000], none, none, true⟩
def lowLoad : CueLoad := { goodLoad with target := some 100 }

theorem test_power_on : nextWith (exec .powerOn (running .moving)) (fun t =>
    t.held = some .powerOn ∧ t.ctl.ctx = none ∧ t.table = [] ∧ t.meas.referenced = false ∧ driveEn t = false) = true := by
  decide +kernel
theorem test_supply_dip : nextWith (exec .supplyDip (running .moving)) (fun t =>
    t.held = some .supplyDip ∧ spdRef t = 2048 ∧ brakeRel t = false) = true := by decide +kernel
theorem test_reset_pin : nextWith (exec .resetPin (armedIn .parked ⟨7, none, none⟩)) (fun t =>
    t.held = some .resetPin ∧ t.ctl.armed = [] ∧ t.ctl.override = 100) = true := by decide +kernel
/-- R171: a millisecond after a reset another one is a later one, and the power-on sequence announces its cause. -/
theorem test_second_reset_cause : nextWith (step State.reset) (fun r => nextWith (exec .resetPin r) (fun t =>
    t.held = some .resetPin ∧ nextWith (exec (.powerOnSequence 9) t) (fun u =>
      u.line.announce.map (·.body.cause) = some (.reset .resetPin)) = true) = true) = true := by decide +kernel
/-- R171: of resets applied at the same time the first in the order is the cause, whichever command comes first. -/
theorem test_joined_reset_cause :
    let held (cause : ResetCause) : State := { State.reset with held := some cause }
    nextWith (exec .resetPin (held .supplyDip)) (fun t => t.held = some .supplyDip) = true ∧
      nextWith (exec .supplyDip (held .resetPin)) (fun t => t.held = some .supplyDip) = true ∧
      nextWith (exec .supplyDip (held .powerOn)) (fun t => t.held = some .powerOn) = true := by
  decide +kernel
/-- Logs 4 and 54: the blocks that the model starts with carry good checks. -/
theorem test_initial_checks : Stores.initial.nvSetup.good = true ∧ Stores.initial.nvCues.good = true := by
  decide +kernel
theorem test_power_on_sequence : nextWith (exec (.powerOnSequence 9) State.reset) (fun t =>
    t.held = none ∧ t.station = 9 ∧ t.seq.axis = .rest ∧ t.store.cueState = .empty ∧
      t.line.announce.map (·.body.cause) = some (.reset .powerOn)) = true := by decide +kernel
theorem test_power_on_sequence_unaddressed : nextWith (exec (.powerOnSequence 48) State.reset) (fun t =>
    t.seq.axis = .unaddressed ∧ t.line.announce = none ∧ t.line.status = none) = true := by decide +kernel
theorem test_status_frame : nextWith (exec (.statusFrame fromTwelve movingBytes) armedAll) (fun t =>
    t.peers.map (fun p => p.contents.map fun c => (c.axis, c.cue, c.phase, c.progress)) =
        [some (.moving, 42, some .running, 2048)] ∧
      t.peers.map (fun p => p.contents.map fun c => (c.setPoint, c.measured, c.stopPoint)) =
        [some (3500000, 3500000, 3600000)]) = true := by decide +kernel
theorem test_mark_frame : nextWith (exec (.markFrame fromTwelve 42 2) armedAll) (fun t =>
    t.ctl.armed.map (·.trigger) = [none, some (.delaying 1500), none]) = true := by decide +kernel
theorem test_standby : nextWith (exec (.standby toAll 7 nine 5) (at' .parked)) (fun t =>
    t.ctl.armed = [⟨7, some 5000, none⟩] ∧ t.seq.rest = none ∧ t.ctl.lastEvent = some (.armed 7)) = true := by
  decide +kernel
theorem test_standby_no_cue : nextWith (exec (.standby toAll 70 nine 5) (at' .parked)) (fun t =>
    t.ctl.armed = [] ∧ t.ctl.lastEvent = some (.refused 70 .noCue)) = true := by decide +kernel
theorem test_go : nextWith (exec (.go toAll 9) armedAll) (fun t =>
    t.seq.axis = .releasing ∧ t.ctl.ctx.map (·.views) = some [(12, .armed)] ∧ brakeRel t = true ∧
      t.line.status.isSome = true) = true := by decide +kernel
theorem test_go_no_enable :
    nextWith (exec (.go toAll 7) { armedAll with ctl := { armedAll.ctl with enableFresh := false } }) (fun t =>
      t.ctl.lastEvent = some (.refused 7 .noEnable) ∧ t.seq.axis = .parked) = true := by decide +kernel
theorem test_cancel : nextWith (exec (.cancel toAll 7 nine) (armedIn .parked ⟨7, none, none⟩)) (fun t =>
    t.ctl.armed = [] ∧ t.ctl.lastEvent = some (.disarmed 7 .cancel) ∧ t.seq.rest = some 60000) = true := by
  decide +kernel
theorem test_stop : nextWith (exec (.stop toAll nine) (running .moving)) (fun t =>
    t.seq.axis = .stopping ∧ t.seq.stopKind = .controlled ∧ t.ctl.ctx.map (·.endReason) = some (some .abandoned)) =
      true := by decide +kernel
theorem test_enable : nextWith (exec (.enable toAll nine 150 33) (at' .parked)) (fun t =>
    t.ctl.override = 100 ∧ t.ctl.enableCount = 33 ∧ t.ctl.lapse = some 200) = true := by decide +kernel
theorem test_enable_other : nextWith (exec (.enable toAll nobody 50 33) (at' .parked)) (fun t =>
    t.ctl.override = 100 ∧ t.ctl.enableCount = 0) = true := by decide +kernel
theorem test_clear : nextWith (exec (.clear toNine 0) (trippedBy .overload)) (fun t =>
    t.seq.axis = .rest ∧ t.sup.latched = [] ∧
      t.line.replies.map (·.body) = [.reply ⟨50, .clear, 7, .done, 0⟩]) = true := by decide +kernel
theorem test_clear_still_active :
    nextWith (exec (.clear toNine 0) { trippedBy .driveFault with sup := ⟨[.driveFault], [.driveFault], false, none⟩ })
      (fun t => t.seq.axis = .tripped ∧ t.line.replies.map (·.body) = [.reply ⟨50, .clear, 7, .stillActive, 0⟩]) =
      true := by decide +kernel
theorem test_home : nextWith (exec (.home toNine) (at' .parked)) (fun t =>
    t.seq.axis = .releasing ∧ t.seq.startReq = .home ∧
      t.line.replies.map (·.body) = [.reply ⟨50, .home, 7, .done, 0⟩]) = true := by decide +kernel
theorem test_home_not_idle : nextWith (exec (.home toNine) (running .moving)) (fun t =>
    t.seq.axis = .moving ∧ t.line.replies.map (·.body) = [.reply ⟨50, .home, 7, .notIdle, 0⟩]) = true := by
  decide +kernel
theorem test_cueload : nextWith (exec (.cueload toNine goodLoad) (at' .parked)) (fun t =>
    t.table.map (·.cue.number) = [7, 8, 9, 20] ∧ (findCue t.table 20).map (·.sig) = some 0 ∧
      t.line.replies.map (·.body) = [.reply ⟨50, .cueload, 7, .done, 0⟩]) = true := by decide +kernel
theorem test_cueload_low : nextWith (exec (.cueload toNine lowLoad) (at' .parked)) (fun t =>
    t.table.length = 3 ∧ t.line.replies.map (·.body) = [.reply ⟨50, .cueload, 7, .badField, 2⟩]) = true := by
  decide +kernel
theorem test_cuedrop : nextWith (exec (.cuedrop toNine 8) (at' .parked)) (fun t =>
    t.table.map (·.cue.number) = [7, 9] ∧
      t.line.replies.map (·.body) = [.reply ⟨50, .cuedrop, 7, .done, 2⟩]) = true := by decide +kernel
theorem test_cuedrop_running : nextWith (exec (.cuedrop toNine 7) (running .moving)) (fun t =>
    t.table.length = 3 ∧ t.line.replies.map (·.body) = [.reply ⟨50, .cuedrop, 7, .cueInUse, 2⟩]) = true := by
  decide +kernel
theorem test_cueask : nextWith (exec (.cueask toNine 1 .fromNumber) (running .moving)) (fun t =>
    t.line.replies.map (·.body) =
      [.report ⟨50, 7, 1, .fromNumber, 3, some (takenRecord plainCue, .running)⟩]) = true := by decide +kernel
theorem test_save : nextWith (exec (.save toNine) (at' .parked)) (fun t =>
    t.store.cueState = .bad ∧ t.store.saving = some [plainCue, followCue, groupCue] ∧
      t.line.replies.map (·.body) = [.reservation .save 50 7]) = true := by decide +kernel
theorem test_save_complete :
    nextWith (exec .saveComplete
      { at' .parked with
        store := { Stores.initial with saving := some [plainCue, followCue], cueState := .bad }
        line := { LinePort.reset with replies := [⟨0, none, .reservation .save 50 7⟩] } }) (fun t =>
      t.store.cueState = .good ∧ t.store.nvCues.valid = true ∧ t.store.nvCues.count = 2 ∧
        t.store.nvCues.records = [plainCue, followCue] ∧ t.store.nvCues.good = true ∧
        t.line.replies.map (·.body) = [.reply ⟨50, .save, 7, .done, 2⟩]) = true := by decide +kernel
theorem test_setup : nextWith (exec (.setup toNine 1 (.num 6000) true) (at' .parked)) (fun t =>
    t.store.image.nmPerCount = 6000 ∧ t.store.live.nmPerCount = 5000 ∧ t.store.revision = 1 ∧
      t.store.writing = true) = true := by decide +kernel
theorem test_setup_range : nextWith (exec (.setup toNine 1 (.num 999) true) (at' .parked)) (fun t =>
    t.store.image.nmPerCount = 5000 ∧ t.line.replies.map (·.body) = [.reply ⟨50, .setup, 7, .range, 1⟩]) = true := by
  decide +kernel
theorem test_setup_write_complete :
    nextWith (exec .setupWriteComplete
      { at' .parked with
        store := { Stores.initial with writing := true, revision := 3 }
        line := { LinePort.reset with replies := [⟨0, none, .reservation .setup 50 7⟩] } }) (fun t =>
      t.store.nvSetup.revision = 3 ∧ t.store.nvSetup.good = true ∧ t.store.writing = false ∧
        t.line.replies.map (·.body) = [.reply ⟨50, .setup, 7, .done, 3⟩]) = true := by decide +kernel
/-- R159, R163: with four answers waiting an addressed SETUP is discarded, its key still on the pin. -/
theorem test_setup_queue_full :
    let s := { at' .parked with
      line := { LinePort.reset with replies := List.replicate 4 ⟨0, none, .reply ⟨50, .home, 6, .done, 0⟩⟩ } }
    nextWith (exec (.setup toNine 1 (.num 6000) true) s) (fun t =>
      t.store = s.store ∧ t.line = s.line ∧ t.inp.maintKey = true) = true := by decide +kernel
/-- R169: a SETUP that waited is judged by what MAINT_KEY reads as it is acted on, which nothing fixes (log 62). -/
theorem test_setup_waiting_key :
    (∀ s, (readKey s).inp.maintKey = Config.maintKey s.freeCount) ∧
    (takeSetup toNine 1 (.num 6000) (at' .parked)).line.replies.map (·.body) = [.reply ⟨50, .setup, 7, .notMaint, 0⟩] ∧
    (takeSetup toNine 1 (.num 6000) { at' .parked with inp := { Inputs.initial with maintKey := true } }).line.replies.map
      (·.body) = [.reservation .setup 50 7] := by
  refine ⟨fun _ => rfl, ?_, ?_⟩ <;> decide +kernel
/-- R159: a SAVE during a SETUP write waits and is taken after it; a waiting request keeps its REPLY place. -/
theorem test_save_waiting :
    let s := { at' .parked with
      store := { Stores.initial with writing := true, revision := 3 }
      line := { LinePort.reset with replies := [⟨0, none, .reservation .setup 50 7⟩] } }
    nextWith (exec (.save toNine) s) (fun t =>
      t.store.waiting = [.save toNine] ∧ t.store.saving = none ∧ t.line = s.line ∧
        nextWith (exec .setupWriteComplete t) (fun u =>
          u.store.waiting = [] ∧ u.store.saving = some [plainCue, followCue, groupCue] ∧ u.store.cueState = .bad ∧
            u.line.replies.map (·.body) = [.reply ⟨50, .setup, 7, .done, 3⟩, .reservation .save 50 7]) = true) = true ∧
      replyFree { s with store := { s.store with waiting := List.replicate 3 (.save toNine) } } = false := by
  decide +kernel
theorem test_linereset : nextWith (exec (.linereset toAll nine) armedAll) (fun t =>
    t.ctl.armed = [] ∧ t.ctl.enableFresh = false ∧ t.ctl.lastEvent = some (.disarmed 9 .lineReset) ∧ t.peers = [] ∧
      t.line.announce.map (·.body.cause) = some .lineReset) = true := by decide +kernel
/-- R161, R31: a line reset in MOVING builds two STATUS, and the second shows the latch that the first has cleared. -/
theorem test_linereset_overrun :
    nextWith (exec (.linereset toAll nine) { running .moving with gen := { (running .moving).gen with overrun := true } })
      (fun t => t.seq.axis = .stopping ∧ t.line.status.map (·.body.overrun) = some false ∧ t.gen.overrun = false) =
      true := by decide +kernel
theorem test_frame_discarded : nextWith (exec (.frameDiscarded [1, 2, 3]) armedAll) (fun t => t = armedAll) = true := by
  decide +kernel
/-- R153, R159, R165: the bytes of a GO, a MARK, a STANDBY and an ENABLE act as those commands; the set of eight bytes
names station 9 by bit 1 of byte 1. One bit of the check wrong, and the frame is discarded. -/
theorem test_frame_received :
    actsAs (.frameDiscarded (wireFrame 9 50 0 7 [0, 9])) (.go toAll 9) armedAll = true ∧
      actsAs (.frameDiscarded (wireFrame 2 12 0 3 [0, 42, 2])) (.markFrame fromTwelve 42 2) armedAll = true ∧
      actsAs (.frameDiscarded (wireFrame 8 50 0 7 [0, 7, 0, 2, 0, 0, 0, 0, 0, 0, 5])) (.standby toAll 7 nine 5)
        (at' .parked) = true ∧
      actsAs (.frameDiscarded (wireFrame 12 50 0 7 [0, 2, 0, 0, 0, 0, 0, 0, 50, 33])) (.enable toAll nine 50 33)
        (at' .parked) = true := by decide +kernel
theorem test_frame_bad_check :
    nextWith (exec (.frameDiscarded ((wireFrame 9 50 0 7 [0, 9]).dropLast ++ [0])) armedAll) (fun t => t = armedAll) =
      true := by decide +kernel
/-- R158: a STOP whose payload is a set and one byte more is discarded by its owner. -/
theorem test_frame_too_long :
    nextWith (exec (.frameDiscarded (wireFrame 11 50 0 7 [0, 2, 0, 0, 0, 0, 0, 0, 0])) (running .moving)) (fun t =>
      t = running .moving) = true := by decide +kernel
/-- R153: the byte 05h on the line, the least significant bit first between a start bit and a stop bit. -/
theorem test_serial_byte :
    serialByte 5 = [.start, .data true, .data false, .data true, .data false, .data false, .data false, .data false,
      .data false, .stop] := by decide
/-- R172, R153: an ANNOUNCE is sent with kind 3 and addressee 0. -/
theorem test_announce_header :
    lineHeader { at' .parked with
      line := { LinePort.reset with
        attempt := some ⟨.announce, 4, 0, .announce ⟨.lineReset, 0, 3, .good⟩, false⟩ } } = some ⟨3, 9, 0, 4⟩ := by
  decide +kernel
theorem test_estop_loop_open : nextWith (exec .estopLoopOpen (running .moving)) (fun t =>
    t.seq.axis = .tripped ∧ driveEn t = false ∧ brakeRel t = false ∧ t.sup.latched = [.estop] ∧
      t.ctl.lastEvent = some (.ended 7 .estop 2000)) = true := by decide +kernel
theorem test_estop_loop_closed :
    nextWith (exec .estopLoopClosed
      { trippedBy .estop with
        inp := { Inputs.initial with loopOpen := true }
        sup := ⟨[.estop], [.estop], false, none⟩ }) (fun t =>
      t.seq.axis = .tripped ∧ t.sup.present = [] ∧ t.sup.latched = [.estop]) = true := by decide +kernel
theorem test_drive_ready_asserted : nextWith (exec .driveReadyAsserted wakingForCue) (fun t =>
    t.seq.axis = .releasing ∧ t.seq.brake = some 300 ∧ t.sup.readySeen = true) = true := by decide +kernel
theorem test_drive_ready_lost :
    nextWith (exec .driveReadyLost { running .moving with sup := ⟨[], [], true, none⟩ }) (fun t =>
      t.seq.axis = .tripped ∧ t.sup.latched = [.driveReady] ∧ t.sup.present = []) = true := by decide +kernel
theorem test_drive_fault_asserted : nextWith (exec .driveFaultAsserted (running .moving)) (fun t =>
    t.seq.axis = .tripped ∧ t.sup.latched = [.driveFault] ∧
      t.ctl.lastEvent = some (.ended 7 (.fault .driveFault) 2000)) = true := by decide +kernel
theorem test_drive_fault_deasserted :
    nextWith (exec .driveFaultDeasserted { trippedBy .driveFault with sup := ⟨[.driveFault], [.driveFault], false, none⟩ })
      (fun t => t.sup.present = [] ∧ t.sup.latched = [.driveFault]) = true := by decide +kernel
theorem test_ultimate_open : nextWith (exec (.ultimateOpen .ultDown) (at' .parked)) (fun t =>
    t.seq.axis = .tripped ∧ t.sup.latched = [.ultimate] ∧ driveEn t = false) = true := by decide +kernel
theorem test_ultimate_closed :
    nextWith (exec .ultimateClosed
      { trippedBy .ultimate with
        inp := { Inputs.initial with ultUpOpen := true, ultDownOpen := true }
        sup := ⟨[.ultimate], [.ultimate], false, none⟩ }) (fun t =>
      t.inp.ultUpOpen = false ∧ t.inp.ultDownOpen = false ∧ t.sup.present = []) = true := by decide +kernel
theorem test_brake_fb_released : nextWith (exec .brakeFbReleased releasingCue) (fun t =>
    t.seq.axis = .moving ∧ t.seq.brake = none ∧
      t.ctl.ctx.bind (·.move) = some ⟨3000000000, 5000000000, .up, 2000000000, 800000, 400, 400⟩) = true := by
  decide +kernel
theorem test_brake_fb_set : nextWith (exec .brakeFbSet (settingTo .suspended)) (fun t =>
    t.seq.axis = .suspended ∧ t.seq.brake = none ∧ spdRef t = 2048) = true := by decide +kernel
theorem test_home_sw_edge :
    nextWith (exec (.homeSwEdge true) { at' .homing with meas := { Measure.reset with count := 77, capture := .armed } })
      (fun t => t.meas.capture = .held 77) = true := by decide +kernel
theorem test_home_sw_edge_inactive :
    nextWith (exec (.homeSwEdge false) { at' .homing with meas := { Measure.reset with count := 77, capture := .armed } })
      (fun t => t.meas.capture = .armed) = true := by decide +kernel
theorem test_encoder_step_wraps :
    nextWith (exec (.encoderStep .aLeads) { at' .rest with meas := { Measure.reset with count := 0x7FFFFFFF } })
      (fun t => t.meas.count = 0x80000000) = true := by decide +kernel
theorem test_encoder_step_both :
    nextWith (exec (.encoderStep .both) (at' .rest)) (fun t => t.meas.count = 0) = true := by decide +kernel
/-- R30: from 400,000 under 800,000 with A = 400 the velocity is 400,400, and the set-point rises by as many nm. -/
theorem test_profile_period : nextWith (exec .profilePeriod (running .moving)) (fun t =>
    t.gen.v = 400400 ∧ t.gen.s = 3000400400 ∧ t.seq.axis = .moving) = true := by decide +kernel
/-- R65, R26: with enable not fresh the velocity target is 0, and the velocity falls by D. -/
theorem test_profile_period_not_enabled :
    nextWith (exec .profilePeriod { running .moving with ctl := { (running .moving).ctl with enableFresh := false } })
      (fun t => t.gen.v = 399600 ∧ t.gen.s = 3000399600 ∧ t.seq.axis = .moving) = true := by decide +kernel
theorem test_pwm_boundary :
    nextWith (exec .pwmBoundary { running .moving with meas := { Measure.reset with pendingDuty := 2500 } })
      (fun t => spdRef t = 2500) = true := by decide +kernel
theorem test_load_conversion :
    nextWith (exec (.loadConversionComplete 101)
      { at' .parked with meas := { Measure.reset with converting := true, window := [1000, 1001, 1001, 1002] } })
      (fun t => t.meas.window = [1001, 1001, 1002, 1010] ∧ t.meas.filtered = some 1003) = true := by decide +kernel
theorem test_load_conversion_rail :
    nextWith (exec (.loadConversionComplete 4095)
      { at' .parked with meas := { Measure.reset with converting := true, window := [1000] } })
      (fun t => t.meas.window = [1000] ∧ t.meas.invalidRun = 1) = true := by decide +kernel
theorem test_peer_ageing :
    nextWith (exec .peerAgeing { armedAll with peers := [{ peerOf 12 (resting 0 none []) with age := 60 }] })
      (fun t => t.peers.map (fun p => (p.age, p.fresh)) = [(61, .stale)]) = true := by decide +kernel
theorem test_wake_timeout : nextWith (exec .wakeTimeout wakingForCue) (fun t =>
    t.seq.axis = .tripped ∧ t.sup.latched = [.driveReady] ∧
      t.ctl.lastEvent = some (.ended 7 (.fault .driveReady) 2000)) = true := by decide +kernel
theorem test_brake_release_timeout : nextWith (exec .brakeReleaseTimeout releasingCue) (fun t =>
    t.seq.axis = .tripped ∧ t.sup.latched = [.brakeRelease] ∧ brakeRel t = false) = true := by decide +kernel
theorem test_brake_set_timeout : nextWith (exec .brakeSetTimeout (settingTo .parked)) (fun t =>
    t.seq.axis = .tripped ∧ t.sup.latched = [.brakeSet] ∧ driveEn t = true) = true := by decide +kernel
theorem test_hold_to_brake :
    nextWith (exec .holdToBrakeExpiry { running .held with seq := { (running .held).seq with hold := some 5000 } })
      (fun t => t.seq.axis = .setting ∧ t.seq.dest = .suspended ∧ t.seq.brake = some 300) = true := by decide +kernel
theorem test_rest_timer : nextWith (exec .restTimerExpiry (at' .parked)) (fun t =>
    t.seq.axis = .rest ∧ driveEn t = false) = true := by decide +kernel
theorem test_lapse_timer : nextWith (exec .lapseTimerExpiry (running .moving)) (fun t =>
    t.ctl.enableFresh = false ∧ t.ctl.lapse = none ∧ t.seq.axis = .moving) = true := by decide +kernel
theorem test_window_expiry : nextWith (exec (.windowExpiry 8) armedAll) (fun t =>
    t.ctl.armed.map (·.cue) = [7, 9] ∧ t.ctl.lastEvent = some (.disarmed 8 .window)) = true := by decide +kernel
theorem test_follow_delay_expiry :
    nextWith (exec (.followDelayExpiry 8) (armedIn .waking ⟨8, none, some (.delaying 0)⟩)) (fun t =>
      t.ctl.ctx.map (·.record.cue.number) = some 8 ∧ t.ctl.armed = [] ∧ t.seq.startReq = .cue) = true := by
  decide +kernel
theorem test_hold_limit : nextWith (exec .holdLimitExceeded (running .suspended)) (fun t =>
    t.seq.axis = .parked ∧ t.ctl.lastEvent = some (.ended 7 .holdLimit 2000)) = true := by decide +kernel
theorem test_recovery_wait :
    nextWith (exec .recoveryWaitExceeded
      { recoveringCue with ctl := { recoveringCue.ctl with ctx := some (plainContext .starting) } }) (fun t =>
      t.seq.axis = .parked ∧ t.ctl.lastEvent = some (.ended 7 .holdLimit 2000)) = true := by decide +kernel
theorem test_dwell : nextWith (exec .dwellExpiry recoveringCue) (fun t =>
    t.seq.axis = .releasing ∧ t.sup.recovery = none ∧ t.ctl.ctx.map (·.phase) = some .running) = true := by
  decide +kernel
theorem test_status_timer :
    nextWith (exec .statusTimerExpiry { at' .parked with line := { LinePort.reset with timer := some 0 } }) (fun t =>
      t.line.status.map (·.body.axis) = some .parked ∧ t.line.timer = some 20) = true := by decide +kernel
theorem test_transmit_attempt :
    nextWith (exec .transmitAttempt
      { at' .parked with line := { LinePort.reset with marks := [⟨0, none, ⟨7, 1⟩⟩], seqCount := 255 } }) (fun t =>
      t.line.attempt = some ⟨.mark, 255, 0, .mark ⟨7, 1⟩, false⟩ ∧ t.line.seqCount = 0) = true := by decide +kernel
theorem test_frame_sent :
    nextWith (exec .frameSent
      { at' .parked with
        line := { LinePort.reset with
          marks := [⟨0, some 255, ⟨7, 1⟩⟩, ⟨0, none, ⟨7, 2⟩⟩]
          attempt := some ⟨.mark, 255, 0, .mark ⟨7, 1⟩, false⟩ } }) (fun t =>
      t.line.marks.map (·.body) = [⟨7, 2⟩] ∧ t.line.attempt = none) = true := by decide +kernel
theorem test_attempt_failed_eighth :
    nextWith (exec .attemptFailed
      { at' .parked with
        line := { LinePort.reset with
          marks := [⟨7, some 255, ⟨7, 1⟩⟩]
          attempt := some ⟨.mark, 255, 7, .mark ⟨7, 1⟩, false⟩ } }) (fun t =>
      t.line.marks = [] ∧ t.line.markLost = true ∧ t.line.backoff = some 1828) = true := by decide +kernel

/-! ## States that meet the hypotheses of the obligations -/

/-- Any next state. -/
def anyState (_ : State) : Bool := true

/-- A state with a command waiting. -/
def waitingFor (c : Instr) (s : State) : State := { s with pending := [c] }

theorem witness_StepRunsFrontCommand : (waitingFor .powerOn State.reset).pending = .powerOn :: [] := by decide

/-- A reset applied; every ms timer running; none running and no context; a lapse timer that has run out. -/
theorem witness_IdlePassesMillisecond :
    let s := running .held
    let all := { s with
      seq := { s.seq with wake := some 5, brake := some 5, hold := some 5, rest := some 5 }
      ctl := { s.ctl with armed := [⟨8, some 5, some (.delaying 5)⟩, ⟨9, none, some .pending⟩] }
      sup := { s.sup with recovery := some ⟨[.slack], some 5, 0⟩ }
      line := { s.line with timer := some 5 } }
    let none' := { at' .moving with ctl := { (at' .moving).ctl with lapse := none } }
    let starting := { recoveringCue with ctl := { recoveringCue.ctl with ctx := some (plainContext .starting) } }
    let late := { s with ctl := { s.ctl with lapse := some 0 } }
    (State.reset.pending = [] ∧ State.reset.held.isSome = true) ∧
      (∀ t ∈ [all, none', starting, late], t.pending = [] ∧ t.held = none) ∧
      (∀ t ∈ [all, none', starting], due t = none) ∧ holdCounts all.seq.axis = true ∧ waitCounts starting = true ∧
      none'.ctl.lapse = none ∧ none'.ctl.ctx = none ∧ none'.line.timer = none ∧ due late = some .lapseTimerExpiry := by
  decide +kernel

/-- Each reset; over a moving cue, over a write of the setup, over a reset applied now or before. -/
theorem witness_ResetSetsBlocks : (running .moving).store.writing = false ∧ (running .moving).held = none ∧
    ({ Stores.initial with writing := true } : Stores).writing = true ∧
    (State.reset.held = some .powerOn ∧ State.reset.resetNow = true ∧ (passMs State.reset).held = some .powerOn ∧
      (passMs State.reset).resetNow = false) ∧
    ∀ c ∈ [(Instr.powerOn, ResetCause.powerOn), (.supplyDip, .supplyDip), (.resetPin, .resetPin)],
      c ∈ [(Instr.powerOn, ResetCause.powerOn), (.supplyDip, .supplyDip), (.resetPin, .resetPin)] := by decide +kernel

/-- A part held in its reset state, as the power-on sequence finds it with a setup block and a cue store. -/
def heldWith (setup : NvSetup) (cues : NvCues) (loopOpen : Bool) : State :=
  { State.reset with
    inp := { Inputs.initial with loopOpen := loopOpen }
    store := { Stores.initial with nvSetup := setup, nvCues := cues } }

/-- The default setup with one rule of peer 12. -/
def ruledSetup : Setup :=
  { Setup.default with
    nRules := 1
    rules := Vector.ofFn fun i : Fin 8 => if i = 0 then ⟨12, 0, 4000, 0, 4000, 250⟩ else ClearanceRule.default }

/-- The setup good, its check wrong, its content refused by station 12; the loop open; the cue store good, empty, with a
wrong check; the straps at 0, 1, 47 and 48. -/
theorem witness_PowerOnSequenceEntersState :
    let setup := writtenSetup ruledSetup 3
    let cues := writtenCues [plainCue, followCue, groupCue]
    let parts := [heldWith setup cues false, heldWith setup cues true, heldWith { setup with check := 0 } cues true,
      heldWith { setup with check := 0 } cues false, heldWith setup (writtenCues []) false,
      heldWith setup { cues with check := 0 } false]
    (∀ s ∈ parts, s.held = some .powerOn ∧ HeldLawful s ∧ s.inp.ultUpOpen = false ∧ s.inp.ultDownOpen = false ∧
      s.inp.driveFault = false) ∧
    (0#6).toNat = 0 ∧ (1#6).toNat = 1 ∧ (47#6).toNat = 47 ∧ (48#6).toNat = 48 ∧
    (setup.good = true ∧ contentGood 1 setup.image = true ∧ contentGood 47 setup.image = true ∧
      contentGood 12 setup.image = false ∧ ({ setup with check := 0 } : NvSetup).good = false) ∧
    (cues.good = true ∧ cues.count = 3 ∧ (writtenCues []).good = true ∧ (writtenCues []).count = 0 ∧
      ({ cues with check := 0 } : NvCues).good = false ∧ (cues.stored.map (·.number)).Pairwise (· < ·)) := by
  decide +kernel
/-- A cue store of 201 records that passes its check. -/
theorem witness_PowerOnSequenceEntersState_over :
    let cues := writtenCues (List.replicate 201 plainCue)
    HeldLawful (heldWith (writtenSetup ruledSetup 3) cues false) ∧ cues.good = true ∧ 200 < cues.count := by
  refine ⟨fun _ => ⟨rfl, rfl, rfl, rfl, rfl, rfl, rfl, rfl, rfl, rfl, rfl, rfl⟩, writtenCues_good _, ?_⟩
  show 200 < (List.replicate 201 plainCue).length
  rw [List.length_replicate]
  decide

theorem witness_StepKeepsResetBlocks : ∃ s, HeldLawful s ∧ s.held.isSome = true ∧ ∃ t, step s = .next t :=
  ⟨waitingFor (.homeSwEdge true) State.reset, by decide +kernel, by decide +kernel,
    next_of (p := anyState) (by decide +kernel)⟩

/-- A part moving among armed cues and a peer, with a profile period waiting. -/
def lawful : State :=
  let s := running .moving
  { waitingFor .profilePeriod s with
    peers := [peerOf 12 (resting 0 none [])]
    ctl := { s.ctl with armed := [⟨8, none, some .waiting⟩, ⟨9, none, none⟩] } }

theorem lawful_steps : ∃ t, step lawful = .next t := next_of (p := anyState) (by decide +kernel)

theorem witness_StepKeepsPeerTable : HeldLawful lawful ∧ PeersKept lawful ∧ lawful.peers ≠ [] := by decide +kernel
theorem witness_StepKeepsArmedList : HeldLawful lawful ∧ ArmedLawful lawful ∧ TripLawful lawful := by decide +kernel
theorem witness_StepKeepsContextPlaced :
    HeldLawful lawful ∧ ContextLawful lawful ∧ lawful.ctl.ctx.isSome = true := by decide +kernel
theorem witness_StepKeepsContextReferenced :
    HeldLawful lawful ∧ ContextLawful lawful ∧ ReferenceLawful lawful := by decide +kernel

theorem witness_StepKeepsFilteredLoad : ∃ s, LoadLawful s ∧ s.meas.window ≠ [] ∧ ∃ t, step s = .next t :=
  ⟨waitingFor (.loadConversionComplete 100)
      { at' .parked with
        meas := { Measure.reset with converting := true, window := [1000, 1001], filtered := some 1000 } },
    by decide +kernel, by decide +kernel, next_of (p := anyState) (by decide +kernel)⟩

theorem witness_StepKeepsZeroSpeedWithDriveOff : ∃ s, HeldLawful s ∧ DutyLawful s ∧ driveEn s = false ∧
    ∃ t, step s = .next t :=
  ⟨waitingFor .profilePeriod (at' .rest), by decide +kernel, by decide +kernel, by decide +kernel,
    next_of (p := anyState) (by decide +kernel)⟩

theorem witness_StepKeepsStores :
    TableLawful lawful ∧ QueuesLawful lawful ∧ ConditionsLawful lawful ∧ DutyInRange lawful := by decide +kernel
theorem witness_StepKeepsSettled : Settled lawful := by decide +kernel

theorem witness_ProgressNeverFalls : ∃ t y, exec .profilePeriod (running .moving) = .next t ∧
    (running .moving).ctl.ctx = some (plainContext .running) ∧ t.ctl.ctx = some y := by
  have h : nextWith (exec .profilePeriod (running .moving)) (fun t => t.ctl.ctx.isSome) = true := by decide +kernel
  revert h
  cases exec .profilePeriod (running .moving) with
  | next t =>
    intro h
    obtain ⟨y, hy⟩ := Option.isSome_iff_exists.1 h
    exact ⟨t, y, rfl, rfl, hy⟩
  | fault _ => intro h; exact absurd h (by simp [nextWith])
  | refused _ => intro h; exact absurd h (by simp [nextWith])

theorem witness_AxisChangeBuildsStatus : Settled (running .moving) ∧
    nextWith (exec (.stop toAll nine) (running .moving)) (fun t =>
      addressed t ∧ t.seq.axis ≠ (running .moving).seq.axis) = true := by decide +kernel

/-- Below X, at X, and at the largest velocity under the smallest X. -/
theorem witness_StoppingDistanceIsBrakingSum :
    0 < 50 ∧ 49 < 50 ∧ 50 ≤ 50 ∧ 2000000 ≤ 2000000 ∧ stoppingDistance 49 50 = 0 ∧ 2000000 / 50 = 40000 := by decide

/-- A state for each candidate of R30: room for the rise; for the present velocity alone; for the fall toward a lower
limit; for c4 alone; for none. -/
theorem witness_FirstFeasibleCandidateChosen :
    chooseVelocity 1000 2000 400 400 100000 = (1400, false) ∧ chooseVelocity 1000 2000 400 400 1900 = (1000, false) ∧
      chooseVelocity 1000 500 400 400 100000 = (600, false) ∧ chooseVelocity 1000 2000 400 400 800 = (600, false) ∧
      chooseVelocity 1000 2000 400 400 799 = (600, true) := by decide

theorem witness_TargetLimitedMoveNeverOverruns :
    0 < 400 ∧ 1000000 ≤ 2000000 ∧ stoppingDistance 20000 400 ≤ 1000000 := by decide

theorem witness_VelocityStaysWithinLimit : (400000 : Nat) ≤ 800000 ∧ (800000 : Nat) ≤ 800000 := by decide

/-- A move up and a move down; a step that ends it, a step that does not, and one that creeps. -/
theorem witness_StepNeverPassesTarget :
    MoveWithin plainMove 3000000000 ∧ MoveWithin { plainMove with s0 := 6000000000, dir := .down } 5000000100 ∧
      plainMove.target < 2 ^ 48 ∧
      (chooseVelocity 400000 800000 400 400 (remainingTo plainMove 3000000000)).1 = 400400 ∧
      (runPeriod 400000 800000 400 400 (remainingTo plainMove 3000000000) 36000000000).arrived = false ∧
      (chooseVelocity 0 800000 400 400 (remainingTo plainMove 5000000000)).1 = 0 ∧
      remainingTo plainMove 5000000000 = 0 ∧
      (runPeriod 300 800000 400 400 (remainingTo plainMove 4999999700) 36000000000).arrived = true := by
  refine ⟨?_, ?_, ?_, ?_, ?_, ?_, ?_, ?_⟩ <;> first | decide +kernel | (simp [MoveWithin, plainMove]; try decide)

/-- 399 nm short with A = 400 creeps; 399 nm short with a velocity target of 0 rests. -/
theorem witness_CreepReachesTarget :
    (chooseVelocity 0 0 400 400 399).1 = 0 ∧ (0 : Nat) < 399 ∧ ¬(399 ≤ 400 ∧ 399 ≤ 1000 ∧ 0 < 0) ∧
      (chooseVelocity 100 800000 50 100 40).1 = 0 ∧ 40 ≤ 50 ∧ remainingTo plainMove 4999999960 = 40 := by
  decide +kernel

theorem witness_PacingFollowsLead :
    0 < 64 ∧ 2048 ≤ 2048 ∧ 2000 + 64 ≤ 2064 ∧ 2063 = 2000 + 63 ∧ 0 < 63 ∧ 63 < 64 ∧
      leastCounted [none, some 2000, some 2010] = some 2000 ∧ leastCounted [none] = none := by decide

theorem witness_DutySymmetricAboutZero : 0 < Setup.default.fullScale ∧
    (2000000 : Int).natAbs ≤ Setup.default.fullScale ∧ (-2000000 : Int).natAbs ≤ Setup.default.fullScale := by decide

/-- Rules of peer 12: with no entry, with a STALE one, with a FRESH one whose occupancy touches the peer band, and with
one that misses it by 1 µm. -/
theorem witness_UnfreshPeerMakesRuleActive :
    let p := peerOf 12 (resting 0 none [])
    let stale := { p with fresh := .stale }
    let touching : ClearanceRule := ⟨12, 3750, 40000, 0, 40000, 250⟩
    findPeer [] 12 = none ∧ findPeer [stale] 12 = some stale ∧ stale.fresh ≠ .fresh ∧ (0 ≤ 40000 ∧ 40000 ≤ 40000) ∧
      findPeer [p] 12 = some p ∧ p.fresh = .fresh ∧ p.contents = some (resting 0 none []) ∧
      touching.peerLow ≤ touching.peerHigh ∧ ruleActive [p] touching = true ∧
      ruleActive [{ p with contents := some { resting 0 none [] with setPoint := 3499999 } }] touching = false := by
  decide +kernel

/-- A set-point at each soft limit, and one rule active for it; the cases of the bounds are those of
`test_envelope_edge`. -/
theorem witness_EnvelopeContainsSetPoint :
    ((Setup.default.softLow : Int) * 1000000 ≤ 200000000 ∧ (39800000000 : Int) ≤ (Setup.default.softHigh : Int) * 1000000) ∧
      (∃ r ∈ rulesInUse ruledSetup, ruleActive [] r = true) ∧
      envelopeOf ruledSetup [] 200000000 none none = (200000000, 200000000) ∧
      envelopeOf ruledSetup [] 39800000000 none none = (4250000000, 39800000000) := by decide +kernel

theorem witness_EndDistancesMakeTotal :
    (plainContext .running).move = some plainMove ∧
      plainMove.target = mmToNm (plainContext .running).record.cue.target ∧
      plainMove.dir = moveDir plainMove.s0 plainMove.target ∧
      plainMove.total = distance plainMove.s0 plainMove.target ∧ MoveWithin plainMove (running .moving).gen.s := by
  refine ⟨?_, ?_, ?_, ?_, ?_⟩ <;> first | decide +kernel | (simp [MoveWithin, plainMove]; decide +kernel)

/-- The context of the group cue with station 12 in a view, and the part that runs it. -/
def groupContext (v : MemberView) : CueContext :=
  { plainContext .running with record := takenRecord groupCue, views := [(12, v)] }
def groupRunning (v : MemberView) : State :=
  let s := running .moving
  { s with
    peers := [{ peerOf 12 (resting 9 (some .running) []) with holdings := [⟨9, true, false⟩] }]
    ctl := { s.ctl with ctx := some (groupContext v) } }

/-- No entry; a malformed payload; an entry without a cue; a member seen ARMED that shows the cue, a member seen with it
that has finished. -/
theorem witness_StatusFrameUpdatesPeer :
    Settled armedAll ∧ axisFrameTaken armedAll fromTwelve = true ∧ (parseStatus movingBytes).isSome = true ∧
      hasPeer armedAll.peers 12 = true ∧ armedAll.ctl.ctx = none ∧ parseStatus [] = none ∧
      hasPeer (at' .parked).peers 12 = false ∧ Settled (at' .parked) ∧
      axisFrameTaken (at' .parked) fromTwelve = true ∧
      (∀ v ∈ [MemberView.armed, .cue], Settled (groupRunning v) ∧ axisFrameTaken (groupRunning v) fromTwelve = true ∧
        hasPeer (groupRunning v).peers 12 = true ∧ (groupRunning v).ctl.ctx = some (groupContext v) ∧
        (groupContext v).phase = .running ∧ viewOf (groupContext v) 12 = some v) ∧
      (parseStatus (statusBytes 6 9 2 0)).map (fun c => (c.axis, c.cue)) = some (.moving, 9) ∧
      (parseStatus (statusBytes 4 0 0 16)).map (fun c => (c.cue, c.progress, c.armed)) = some (0, 4096, []) ∧
      nextWith (exec (.statusFrame fromTwelve (statusBytes 6 9 2 0)) (groupRunning .armed)) (fun t =>
        t.ctl.ctx.map (·.views) = some [(12, .cue)]) = true ∧
      nextWith (exec (.statusFrame fromTwelve (statusBytes 4 0 0 16)) (groupRunning .cue)) (fun t =>
        t.ctl.ctx.map (·.views) = some [(12, .finished)]) = true := by decide +kernel

theorem witness_MemberLeavingBreaksGroup :
    let s := groupRunning .cue
    ∃ c, Settled s ∧ axisFrameTaken s fromTwelve = true ∧ parseStatus movingBytes = some c ∧
      hasPeer s.peers fromTwelve.sender = true ∧ s.ctl.ctx = some (groupContext .cue) ∧
      (groupContext .cue).phase = .running ∧ s.seq.axis = .moving ∧
      viewOf (groupContext .cue) fromTwelve.sender = some .cue ∧
      showsContext c (groupContext .cue).record.cue.number = false ∧ c.progress ≠ 4096 ∧
      ownLanding s.store.live (groupContext .cue).record.cue s.gen.s = false :=
  ⟨⟨.moving, 42, some .running, 2048, 3500000, 3500000, 3600000, []⟩, by decide +kernel⟩

/-- A matching cue with a delay, with a delay of 0, and one armed while another cue runs; a MARK that matches none. -/
theorem witness_MarkTriggersFollowCues :
    let atOnce := { armedIn .parked ⟨8, none, some .waiting⟩ with
      table := [takenRecord { followCue with follow := some ⟨12, 42, 2, 0⟩ }] }
    let s := running .moving
    let during := { s with ctl := { s.ctl with armed := [⟨8, none, some .waiting⟩] } }
    (∀ t ∈ [armedAll, atOnce, during], Settled t ∧ axisFrameTaken t fromTwelve = true ∧
      (∃ a ∈ t.ctl.armed, a.cue = 8 ∧ markMatches t 12 42 2 a = true) ∧ (armedNumbers t).Nodup ∧
      ∀ a ∈ t.ctl.armed, a.trigger ≠ some (.delaying 0) ∧ a.trigger ≠ some .pending) ∧
    (∀ a ∈ armedAll.ctl.armed, markMatches armedAll 12 42 2 a = true → delayOf armedAll a.cue ≠ 0) ∧
    (∀ a ∈ armedAll.ctl.armed, markMatches armedAll 12 42 1 a = false) ∧
    (armedAll.ctl.ctx = none ∧ atOnce.ctl.ctx = none ∧ delayOf atOnce 8 = 0 ∧ during.ctl.ctx.isSome = true) := by
  decide +kernel

/-- A PARKED part, and one in REST whose drive is not ready. -/
theorem witness_StandbyArmsCue :
    (∀ s ∈ [at' .parked, at' .rest],
      Settled s ∧ setFrameTaken s toAll nine = true ∧ findCue s.table 7 = some (takenRecord plainCue) ∧
        s.seq.axis ≠ .tripped ∧ isRunning s 7 = false ∧ s.meas.referenced = true ∧ isArmed s 7 = false ∧
        s.ctl.armed.length < 4 ∧ peersFit s.station s.peers (takenRecord plainCue).cue = true) ∧
    (at' .parked).seq.axis ≠ .rest ∧ (at' .rest).seq.axis = .rest ∧ (at' .rest).inp.driveReady = false ∧
    (at' .rest).inp.loopOpen = false := by decide +kernel

/-- A part that meets each refusal of an arming: TRIPPED; no record; the cue running; not referenced; already armed;
four armed; a peer table without place. -/
theorem witness_StandbyRefusedInOrder :
    let unref := { at' .parked with meas := Measure.reset }
    let full := { at' .parked with
      seq := { (at' .parked).seq with rest := none }
      ctl := { (at' .parked).ctl with
        armed := [⟨1, none, none⟩, ⟨2, none, none⟩, ⟨3, none, none⟩, ⟨4, none, none⟩] } }
    let crowd := { at' .parked with peers := (List.range 16).map fun n => peerOf (n + 20) (resting 0 none []) }
    (∀ s ∈ [at' .tripped, at' .parked, running .moving, unref, armedAll, full, crowd],
      Settled s ∧ setFrameTaken s toAll nine = true) ∧
    (at' .tripped).seq.axis = .tripped ∧ findCue (at' .parked).table 70 = none ∧ isRunning (running .moving) 7 = true ∧
    (isRunning unref 7 = false ∧ unref.meas.referenced = false) ∧
    (isRunning armedAll 7 = false ∧ isArmed armedAll 7 = true) ∧
    (isArmed full 7 = false ∧ 4 ≤ full.ctl.armed.length ∧ full.meas.referenced = true) ∧
    (isArmed crowd 8 = false ∧ crowd.ctl.armed.length < 4 ∧
      findCue crowd.table 8 = some (takenRecord followCue) ∧
      peersFit crowd.station crowd.peers (takenRecord followCue).cue = false) := by decide +kernel

theorem witness_CancelAndWindowDisarm :
    let s := armedIn .parked ⟨7, some 0, none⟩
    Settled s ∧ setFrameTaken s toAll nine = true ∧ isArmed s 7 = true ∧ windowRuns s 7 = true ∧ s.seq.axis = .parked ∧
      (s.ctl.armed.filter fun a => decide (a.cue ≠ 7)) = [] ∧ s.ctl.ctx = none ∧ s.store.live.restCount ≠ 0 := by
  decide +kernel

theorem witness_EnableTakenAndLapses :
    setFrameTaken (at' .parked) toAll nine = true ∧ setFrameTaken (at' .parked) toAll nobody = false ∧
      (∀ s ∈ [running .moving, at' .homing], Settled s ∧ s.ctl.lapse.isSome = true ∧ s.seq.startReq ≠ .home) ∧
      (running .moving).seq.axis ≠ .homing ∧ (running .moving).seq.axis ≠ .stopping ∧
      (at' .homing).seq.axis = .homing := by decide +kernel

theorem witness_CueStartsInWaking :
    let s := armedIn .waking ⟨7, none, some (.delaying 0)⟩
    Settled s ∧ consoleFrameTaken s toAll = true ∧ delayRuns s 7 = true ∧
      findCue s.table 7 = some (takenRecord plainCue) ∧ isArmed s 7 = true ∧ s.ctl.ctx = none ∧ s.seq.axis = .waking ∧
      s.seq.startReq ≠ .home ∧ s.meas.referenced = true ∧ s.ctl.enableFresh = true ∧
      groupVerdict s.station s.peers (takenRecord plainCue) = none ∧ withinBand s (takenRecord plainCue) = false ∧
      (∀ a ∈ s.ctl.armed, a.cue ≠ 7 → a.trigger ≠ some (.delaying 0)) := by decide +kernel

/-- The group cue, its member ready: the brake set; the brake read released; OVERLOAD present under RECOVER, with the brake
set and released; the target where the axis stands. -/
theorem witness_GoReleasesParkedAxis :
    let s := armedAll
    let r := takenRecord groupCue
    let free (t : State) : State := { t with inp := { t.inp with brakeReleased := true } }
    let heavy := { s with
      sup := ⟨[.overload], [], false, none⟩
      store := { s.store with live := { Setup.default with clsOverload := .recover } } }
    let near := { s with meas := { s.meas with measured := 6000000000 } }
    (∀ t ∈ [s, free s, heavy, free heavy, near], Settled t ∧ consoleFrameTaken t toAll = true ∧
      findCue t.table 9 = some r ∧ isArmed t 9 = true ∧ t.ctl.ctx = none ∧ t.seq.axis = .parked ∧ t.seq.startReq ≠ .home ∧
      t.meas.referenced = true ∧ t.ctl.enableFresh = true ∧ groupVerdict t.station t.peers r = none ∧
      (∀ a ∈ t.ctl.armed, a.cue ≠ 9 → a.trigger ≠ some (.delaying 0) ∧ a.trigger ≠ some .pending)) ∧
    withinBand near r = true ∧ (∀ t ∈ [s, free s, heavy, free heavy], withinBand t r = false) ∧
    (∀ t ∈ [s, free s], ∀ d ∈ t.sup.present, classOf t d ≠ .recover) ∧
    s.inp.brakeReleased = false ∧ s.inp.loopOpen = false ∧ (free s).inp.brakeReleased = true ∧
    (∀ v ∈ (newContext s.station s.peers r).views, ∀ c ∈ memberContents s.peers v.1, breaksGroup 9 c v.2 = false) ∧
    (∀ t ∈ [heavy, free heavy], t.sup.recovery = none ∧ isPresent t .overload = true ∧ classOf t .overload = .recover ∧
      ∀ d ∈ t.sup.present, d ≠ .overload → classOf t d ≠ .recover) := by decide +kernel

/-- A part that meets each refusal of a start: not armed; busy; not homed; no enable; the group not ready; the follow
delay of cue 8 running in each of the last four. -/
theorem witness_StartRefusedInOrder :
    let e : ArmedCue := ⟨9, none, some (.delaying 0)⟩
    let busy := { running .moving with ctl := { (running .moving).ctl with armed := [e] } }
    let unref := { armedIn .parked e with meas := Measure.reset }
    let noEnable := { armedIn .parked e with ctl := { (armedIn .parked e).ctl with enableFresh := false } }
    let alone := armedIn .parked e
    let r := takenRecord groupCue
    (∀ s ∈ [at' .parked, busy, unref, noEnable, alone],
      Settled s ∧ consoleFrameTaken s toAll = true ∧ findCue s.table 9 = some r ∧ isRunning s 9 = false) ∧
    isArmed (at' .parked) 9 = false ∧
    (∀ s ∈ [busy, unref, noEnable, alone], isArmed s 9 = true ∧ delayRuns s 9 = true) ∧
    startAllowed busy = false ∧
    (∀ s ∈ [unref, noEnable, alone], startAllowed s = true) ∧ unref.meas.referenced = false ∧
    noEnable.meas.referenced = true ∧ noEnable.ctl.enableFresh = false ∧
    alone.meas.referenced = true ∧ alone.ctl.enableFresh = true ∧
    groupVerdict alone.station alone.peers r = some .groupNotReady := by decide +kernel

/-- MOVING; HELD without and with a PENDING follow cue; WAKING, RELEASING, SUSPENDED, RECOVERING, SETTING toward each of
the last two, a FAST stop toward RECOVERING and toward PARKED; no cue; a CONTROLLED stop that goes on, that comes to
rest, and that reaches the target. -/
theorem witness_StopEndsCue :
    let held := running .held
    let chained := { held with ctl := { held.ctl with armed := [⟨8, none, some .pending⟩] } }
    let fast (d : SetDest) : State :=
      { running .stopping with seq := { (running .stopping).seq with stopKind := .fast, dest := d } }
    let x := { plainContext .ending with endReason := some .abandoned }
    let ending (v s : Nat) : State :=
      let t := running .stopping
      { t with
        gen := { t.gen with v := v, s := BitVec.ofNat 48 s }
        meas := { t.meas with offset := s, measured := BitVec.ofNat 48 s }
        ctl := { t.ctl with ctx := some x } }
    (∀ s ∈ [running .moving, held, chained, at' .parked, ending 400000 3000000000], Settled s ∧
      setFrameTaken s toAll nine = true) ∧
    ((running .moving).ctl.ctx = some (plainContext .running) ∧ (running .moving).seq.axis = .moving) ∧
    (∀ s ∈ [held, chained], s.ctl.ctx = some (plainContext .running) ∧ s.seq.axis = .held ∧
      s.inp.brakeReleased = true) ∧
    (∀ s ∈ [wakingForCue, releasingCue, running .suspended, recoveringCue, settingTo .suspended, settingTo .recovering,
        fast .recovering, fast .parked], Settled s ∧ setFrameTaken s toAll nine = true ∧
      ∃ x ∈ s.ctl.ctx, x.phase ≠ .ending) ∧
    (wakingForCue.seq.axis = .waking ∧ (plainContext .starting).phase = .starting ∧
      wakingForCue.ctl.ctx = some (plainContext .starting) ∧ releasingCue.seq.axis = .releasing ∧
      (running .suspended).seq.axis = .suspended ∧ recoveringCue.seq.axis = .recovering ∧
      (settingTo .suspended).seq.axis = .setting ∧ (settingTo .suspended).seq.dest = .suspended ∧
      (settingTo .recovering).seq.dest = .recovering) ∧
    (∀ d ∈ [SetDest.recovering, .parked], (fast d).seq.axis = .stopping ∧ (fast d).seq.stopKind = .fast ∧
      (fast d).seq.dest = d) ∧
    pendingCues held = [] ∧ pendingCues chained = [8] ∧ (plainContext .running).phase ≠ .ending ∧
    (∀ y ∈ (at' .parked).ctl.ctx, y.phase = .ending) ∧
    (∀ s ∈ [ending 400000 3000000000, ending 300 3000000000, ending 300 4999999700],
      s.ctl.ctx = some x ∧ x.move = some plainMove ∧ x.phase = .ending ∧ Unreferencing s ∧
      CalmUnder plainMove.vmax s ∧ s.seq.axis = .stopping ∧ s.seq.stopKind = .controlled ∧ s.gen.homing = none ∧
      FollowsWithin s (steppedPoint plainMove s.gen.s (periodStep s plainMove 0)) (periodMeasured s) ∧
      pendingCues s = [] ∧ s.ctl.armed = [] ∧ s.inp.brakeReleased = true) ∧
    (let p := periodStep (ending 400000 3000000000) plainMove 0; p.arrived = false ∧ p.v = 399600) ∧
    (let p := periodStep (ending 300 3000000000) plainMove 0; p.arrived = false ∧ p.v = 0) ∧
    (let p := periodStep (ending 300 4999999700) plainMove 0; p.v = 0) := by decide +kernel

/-- SUSPENDED; RECOVERING with every condition gone, RUNNING and STARTING; RECOVERING with SLACK present. -/
theorem witness_HoldLimitEndsCue :
    let starting := { recoveringCue with ctl := { recoveringCue.ctl with ctx := some (plainContext .starting) } }
    let still := { recoveringCue with sup := ⟨[.slack], [], false, some ⟨[.slack], none, 0⟩⟩ }
    let stillStarting := { still with ctl := starting.ctl }
    (∀ s ∈ [running .suspended, recoveringCue, starting, still, stillStarting],
      Settled s ∧ s.ctl.ctx.isSome = true ∧ pendingCues s = []) ∧
    (running .suspended).ctl.ctx = some (plainContext .running) ∧ (running .suspended).seq.axis = .suspended ∧
    recoveringCue.sup.recovery = some ⟨[.slack], some 2000, 0⟩ ∧ recoveringCue.seq.axis = .recovering ∧
    (∀ c ∈ [Condition.slack], isPresent recoveringCue c = false) ∧
    recoveringCue.ctl.ctx = some (plainContext .running) ∧ starting.ctl.ctx = some (plainContext .starting) ∧
    still.seq.axis = .recovering ∧ still.ctl.ctx = some (plainContext .running) ∧
    ([Condition.slack].filter (isPresent still)) = .slack :: [] := by decide +kernel

/-- The end of the dwell; a period of SUSPENDED free to move, and one without enable. -/
theorem witness_DwellReleasesAgain :
    let s := recoveringCue
    let free := { running .suspended with
      gen := { (running .suspended).gen with v := 0 }
      inp := { (running .suspended).inp with brakeReleased := false } }
    let waits := { free with ctl := { free.ctl with enableFresh := false } }
    let x := plainContext .running
    (∀ t ∈ [s, free, waits], Settled t ∧ t.ctl.ctx = some x ∧ t.inp.brakeReleased = false ∧ t.inp.loopOpen = false ∧
      t.sup.present = []) ∧
    x.phase = .running ∧ x.move = some plainMove ∧ s.seq.axis = .recovering ∧
    s.sup.recovery = some ⟨[.slack], some 2000, 0⟩ ∧
    (∀ t ∈ [free, waits], t.seq.axis = .suspended ∧ Unreferencing t ∧ CalmUnder plainMove.vmax t ∧
      t.gen.homing = none) ∧
    periodTarget free x plainMove false = 800000 ∧ periodTarget waits x plainMove false = 0 ∧
    plainMove.accel ≤ min (remainingTo plainMove free.gen.s) (periodRoom free plainMove) := by decide +kernel

theorem witness_LineResetClearsCalls :
    (∀ s ∈ [armedAll, running .moving],
      Settled s ∧ setFrameTaken s toAll nine = true ∧ setFrameTaken s toAll nobody = false ∧ s.seq.startReq ≠ .home ∧
        s.ctl.homing = none ∧ s.gen.homing = none) ∧
    armedAll.ctl.ctx = none ∧ (running .moving).ctl.ctx = some (plainContext .running) ∧
    (running .moving).seq.axis = .moving := by decide +kernel
/-- A homing move downward from 3000 mm at a velocity, with a travel left, the brake released. -/
def homingAt (v travel : Nat) : State :=
  let s := at' .homing
  { s with
    inp := { s.inp with brakeReleased := true, driveReady := true }
    gen := { s.gen with v := v, homing := some ⟨.down, 3000000000, 100000, 200, travel, .search⟩ }
    meas := { s.meas with capture := .armed, referenced := false }
    ctl := { s.ctl with homing := some ⟨false, false, false⟩ } }

/-- SETTING toward TRIPPED; PARKED; TRIPPED with everything gone; TRIPPED with DRIVE_FAULT still present. -/
theorem witness_ClearAnswersAndRests :
    let present := { trippedBy .driveFault with sup := ⟨[.driveFault], [.driveFault], false, none⟩ }
    (∀ s ∈ [settingTo .tripped, at' .parked, trippedBy .overload, present],
      Settled s ∧ requestTaken s toNine = true) ∧
    stoppingToTrip (settingTo .tripped) = true ∧ stoppingToTrip (at' .parked) = false ∧
    (trippedBy .overload).seq.axis = .tripped ∧
    ((trippedBy .overload).sup.latched.filter fun c => (trippedBy .overload).sup.present.contains c) = [] ∧
    (present.sup.latched.filter fun c => present.sup.present.contains c) ≠ [] ∧
    consoleFrameTaken (trippedBy .overload) toAll = true ∧ toAll.addressee = 0 ∧
    inSet nine (trippedBy .overload).station = true ∧ inSet nobody (trippedBy .overload).station = false := by
  decide +kernel

/-- MOVING; no enable; an active rule; PARKED; REST. Periods of a homing move: searching; a rule becoming active; a
capture held, brought to rest, without and with an active rule; the travel run through with nothing captured. -/
theorem witness_HomeStartsOrRefuses :
    let noEnable := { at' .parked with ctl := { (at' .parked).ctl with enableFresh := false } }
    let blocked := { at' .parked with guard := ⟨[true], 0, 0, false⟩ }
    let ruled (s : State) : State := { s with store := { s.store with live := ruledSetup } }
    let found (s : State) : State := { s with meas := { s.meas with capture := .held 0 } }
    let missing := homingAt 0 0
    (∀ s ∈ [running .moving, noEnable, blocked, at' .parked, at' .rest], Settled s ∧ requestTaken s toNine = true) ∧
    homeIdle (running .moving) = false ∧
    (homeIdle noEnable = true ∧ noEnable.ctl.enableFresh = false) ∧
    (homeIdle blocked = true ∧ blocked.ctl.enableFresh = true ∧ clearVerdict blocked = false) ∧
    (∀ s ∈ [at' .parked, at' .rest],
      s.ctl.ctx = none ∧ s.seq.startReq ≠ .home ∧ s.ctl.enableFresh = true ∧ clearVerdict s = true ∧
        s.inp.loopOpen = false ∧ s.inp.brakeReleased = false ∧ s.inp.driveReady = false ∧ s.sup.present = []) ∧
    toAll.addressee = 0 ∧
    (∀ s ∈ [homingAt 20000 3000000000, ruled (homingAt 20000 3000000000), found (homingAt 0 3000000000),
        ruled (found (homingAt 0 3000000000)), missing],
      Settled s ∧ s.held = none ∧ s.seq.axis = .homing ∧ s.ctl.ctx = none ∧ s.gen.homing.isSome = true ∧
        s.ctl.homing = some ⟨false, false, false⟩ ∧ CalmUnder (s.store.live.homeSpeed * 1000) s ∧
        s.inp.brakeReleased = true) ∧
    nextWith (exec .profilePeriod (homingAt 20000 3000000000)) (fun t => t.gen.v = 20200 ∧ t.seq.axis = .homing) ∧
    nextWith (exec .profilePeriod (ruled (homingAt 20000 3000000000))) (fun t =>
      t.gen.v = 19800 ∧ t.ctl.homing = some ⟨true, false, false⟩) ∧
    nextWith (exec .profilePeriod (found (homingAt 0 3000000000))) (fun t =>
      t.seq.axis = .setting ∧ t.meas.offset = 150000000 ∧ t.ctl.lastEvent = some (.homingEnded .homed)) ∧
    nextWith (exec .profilePeriod (ruled (found (homingAt 0 3000000000)))) (fun t =>
      t.meas.referenced = true ∧ t.ctl.lastEvent = some (.homingEnded .homeAborted)) ∧
    nextWith (exec .profilePeriod missing) (fun t =>
      t.seq.axis = .stopping ∧ t.seq.dest = .tripped ∧ t.sup.latched = [.homeMiss]) := by decide +kernel

/-- Saving; a bad field; the number running, armed; a full table; room. -/
theorem witness_CueloadTestedThenTaken :
    let saving := { at' .parked with store := { Stores.initial with saving := some [] } }
    let load7 : CueLoad := { goodLoad with number := some 7 }
    let full := { at' .parked with
      table := (List.range 200).map fun n => takenRecord { plainCue with number := n + 100 } }
    (∀ s ∈ [saving, at' .parked, running .moving, armedAll, full], requestTaken s toNine = true) ∧
    saving.store.saving.isSome = true ∧ (at' .parked).store.saving = none ∧
    firstBadField Setup.default 9 lowLoad = some 2 ∧ firstBadField Setup.default 9 goodLoad = none ∧
    firstBadField Setup.default 9 load7 = none ∧ isRunning (running .moving) (recordOf load7).number = true ∧
    (isRunning armedAll (recordOf load7).number = false ∧ isArmed armedAll (recordOf load7).number = true) ∧
    (200 ≤ full.table.length ∧ findCue full.table (recordOf goodLoad).number = none ∧ full.ctl.ctx = none) ∧
    (TableLawful (at' .parked) ∧ (at' .parked).table.length < 200 ∧
      (findCue (at' .parked).table (recordOf load7).number).isSome = true) := by decide +kernel

theorem witness_CuedropTestedThenTaken :
    let saving := { at' .parked with store := { Stores.initial with saving := some [] } }
    (∀ s ∈ [saving, at' .parked, running .moving, armedAll], requestTaken s toNine = true) ∧
    saving.store.saving.isSome = true ∧ (at' .parked).store.saving = none ∧
    findCue (at' .parked).table 70 = none ∧ (findCue (running .moving).table 7).isSome = true ∧
    isRunning (running .moving) 7 = true ∧ (isRunning armedAll 7 = false ∧ isArmed armedAll 7 = true) ∧
    (TableLawful (at' .parked) ∧ isRunning (at' .parked) 7 = false ∧ isArmed (at' .parked) 7 = false) ∧
    askedRecord (at' .parked).table 8 .fromNumber = some (takenRecord followCue) := by decide +kernel

/-- The part with a reservation of a kind behind another answer. -/
def reserved (kind : RequestKind) (st : Stores) : State :=
  { at' .parked with
    store := st
    line := { LinePort.reset with
      replies := [⟨0, none, .reply ⟨50, .home, 6, .done, 0⟩⟩] ++ ⟨0, none, .reservation kind 50 7⟩ :: [] } }

/-- A SAVE taken, one during a save, one during a SETUP write, a completion, and one with no SAVE in flight. -/
theorem witness_SaveWritesTable :
    let s := reserved .save { Stores.initial with saving := some [plainCue] }
    let setting := reserved .setup { Stores.initial with writing := true }
    (requestTaken setting toNine = true ∧ setting.store.writing = true ∧ (at' .parked).store.writing = false ∧
      s.store.writing = false) ∧
    requestTaken (at' .parked) toNine = true ∧ (at' .parked).store.saving = none ∧ requestTaken s toNine = true ∧
      ({ Stores.initial.nvCues with valid := false } : NvCues).valid = false ∧ s.store.saving = some [plainCue] ∧
      s.line.replies = [⟨0, none, .reply ⟨50, .home, 6, .done, 0⟩⟩] ++ ⟨0, none, .reservation .save 50 7⟩ :: [] := by
  decide +kernel

/-- No key; not idle; an ident of no field; a field and a value at the ends of its range; classes; rule fields at the
ends of their ranges; a full REPLY queue; a write in progress, with nothing, one SETUP and one SAVE waiting. -/
theorem witness_SetupTestedThenWritten :
    let s := reserved .setup { Stores.initial with writing := true }
    let waiting := reserved .setup { Stores.initial with writing := true, waiting := [.setup toNine 1 (.num 6000)] }
    let saving := reserved .setup { Stores.initial with writing := true, waiting := [.save toNine] }
    let full := { at' .parked with
      line := { LinePort.reset with replies := List.replicate 4 ⟨0, none, .reply ⟨50, .home, 6, .done, 0⟩⟩ } }
    (consoleFrameTaken full toNine = true ∧ toNine.addressee = full.station ∧ replyFree full = false) ∧
    requestTaken (at' .parked) toNine = true ∧ (at' .parked).store.writing = false ∧
    requestTaken (running .moving) toNine = true ∧ setupIdle (running .moving) = false ∧
    setupIdle (at' .parked) = true ∧ applySetup 9 Setup.default 0 (.num 1) = none ∧
    (applySetup 9 Setup.default 1 (.num 1000)).isSome = true ∧
    (applySetup 9 Setup.default 1 (.num 100000)).isSome = true ∧ fieldRange 1 = some (1000, 100000) ∧
    applySetup 9 Setup.default 1 (.num 999) = none ∧ applySetup 9 Setup.default 1 (.num 100001) = none ∧
    applySetup 9 Setup.default 33 (.cls .recover) = none ∧ (applySetup 9 Setup.default 32 (.cls .off)).isSome = true ∧
    applySetup 9 Setup.default 101 (.num 0) = none ∧ applySetup 9 Setup.default 101 (.num 9) = none ∧
    (applySetup 9 Setup.default 801 (.num 47)).isSome = true ∧ applySetup 9 Setup.default 806 (.num 501) = none ∧
    fieldRange 34 = none ∧ fieldRange 807 = none ∧
    (∀ t ∈ [s, waiting, saving], requestTaken t toNine = true ∧ t.store.writing = true ∧
      t.line.replies =
        [⟨0, none, .reply ⟨50, .home, 6, .done, 0⟩⟩] ++ ⟨0, none, .reservation .setup 50 7⟩ :: []) ∧
    s.store.waiting = [] ∧ waiting.store.waiting = [.setup toNine 1 (.num 6000)] ∧
    saving.store.waiting = [.save toNine] ∧
    (∀ t ∈ [waiting, saving], consoleFrameTaken t toNine = true ∧ toNine.addressee = t.station ∧
      t.line.replies.length < 4) := by decide +kernel

/-- A part in a period with a count change since the last one. -/
def jumped (s : State) (change : BitVec 32) : State :=
  { s with meas := { s.meas with latched := some 0, count := change } }

theorem witness_TripsStopAxis :
    let unaddressed := { State.reset with held := none, seq := { Sequencer.reset with axis := .unaddressed } }
    let fine (s : State) : State := { s with store := { s.store with live := { Setup.default with encJump := 100 } } }
    (∀ s ∈ [unaddressed, trippedBy .overload, running .moving, wakingForCue, releasingCue], Settled s ∧ s.held = none) ∧
    unaddressed.seq.axis = .unaddressed ∧ (trippedBy .overload).seq.axis = .tripped ∧
    ((running .moving).seq.axis = .moving ∧ (running .moving).ctl.armed = [] ∧ (running .moving).ctl.homing = none ∧
      isPresent (running .moving) .driveFault = false ∧ isPresent (running .moving) .ultimate = false) ∧
    (let s := { running .moving with sup := ⟨[], [], true, none⟩ };
      Settled s ∧ driveEn s = true ∧ s.sup.readySeen = true ∧ isPresent s .driveReady = false) ∧
    (wakingForCue.seq.axis = .waking ∧ wakingForCue.seq.wake.isSome = true) ∧
    (releasingCue.seq.axis = .releasing ∧ releasingCue.seq.brake.isSome = true ∧
      isLatched releasingCue .brakeSet = false) ∧
    driveEn (trippedBy .overload) = false ∧
    (let holding := { trippedBy .brakeSet with sup := ⟨[], [.brakeSet], true, none⟩ };
      (∀ s ∈ [holding, jumped holding 1001, jumped holding 4000],
        Settled s ∧ s.held = none ∧ s.seq.axis = .tripped ∧ driveEn s = true ∧ s.sup.readySeen = true ∧
          s.sup.present = [] ∧ Unreferencing s ∧ s.ctl.ctx = none) ∧
      115 * speedLimit (jumped holding 4000) < 100 * (periodDisplacement (jumped holding 4000)).natAbs ∧
      holding.store.live.encJump < (periodChange (jumped holding 1001)).natAbs) ∧
    (∀ s ∈ [jumped (running .moving) 185, jumped (running .moving) 1001, jumped (fine (at' .parked)) 101],
      Settled s ∧ s.held = none ∧ Unreferencing s ∧ s.seq.axis ≠ .unaddressed ∧ s.seq.axis ≠ .tripped ∧
        s.sup.present = [] ∧ s.ctl.armed = [] ∧ s.ctl.homing = none) ∧
    (let s := jumped (running .moving) 185;
      115 * speedLimit s < 100 * (periodDisplacement s).natAbs ∧ (periodChange s).natAbs ≤ s.store.live.encJump) ∧
    (let s := jumped (running .moving) 1001;
      115 * speedLimit s < 100 * (periodDisplacement s).natAbs ∧ s.store.live.encJump < (periodChange s).natAbs) ∧
    (let s := jumped (fine (at' .parked)) 101;
      100 * (periodDisplacement s).natAbs ≤ 115 * speedLimit s ∧ s.store.live.encJump < (periodChange s).natAbs ∧
        brakeRel s = false) := by decide +kernel

theorem witness_InputsChangeWhatReadsThem :
    Settled (running .moving) ∧ (running .moving).held = none ∧ (running .moving).seq.axis ≠ .unaddressed := by
  decide +kernel

/-- WAKING with each start request, and MOVING. -/
theorem witness_DriveReadyCompletesWake :
    let woken (q : StartRequest) : State :=
      { at' .waking with seq := { (at' .waking).seq with startReq := q, wake := some 2000 } }
    (∀ s ∈ [running .moving, woken .none, woken .recover, woken .home, wakingForCue, armedIn .waking ⟨7, none, none⟩],
      Settled s ∧ s.inp.loopOpen = false) ∧
    (running .moving).seq.axis ≠ .waking ∧ (woken .none).seq.axis = .waking ∧ (woken .none).seq.startReq = .none ∧
    ((woken .none).ctl.armed = [] ∧ (woken .none).ctl.ctx = none ∧ (woken .none).store.live.restCount ≠ 0) ∧
    ((armedIn .waking ⟨7, none, none⟩).ctl.armed ≠ [] ∧ (armedIn .waking ⟨7, none, none⟩).seq.startReq = .none) ∧
    (woken .recover).seq.startReq = .recover ∧ (woken .home).seq.startReq = .home ∧
    wakingForCue.seq.startReq = .cue ∧ (∀ x ∈ wakingForCue.ctl.ctx, x.move = none) ∧
    wakingForCue.inp.brakeReleased = false ∧ wakingForCue.sup.present = [] := by decide +kernel

/-- MOVING; RELEASING for a STARTING cue, for one whose member has gone, for a RUNNING one, for homing. -/
theorem witness_ReleaseStartsMotion :
    let again := { running .releasing with
      gen := { (running .releasing).gen with v := 0 }
      seq := { (running .releasing).seq with brake := some 300 } }
    let homing := { at' .releasing with seq := { (at' .releasing).seq with startReq := .home, brake := some 300 } }
    (∀ s ∈ [running .moving, releasingCue, again, homing], Settled s) ∧ (running .moving).seq.axis ≠ .releasing ∧
    (releasingCue.ctl.ctx = some (plainContext .starting) ∧ (plainContext .starting).phase = .starting ∧
      (plainContext .starting).views = []) ∧
    (let x := { plainContext .starting with record := takenRecord groupCue, views := [(12, .armed)] }
      let gone := resting 0 none []
      let alone := { releasingCue with peers := [peerOf 12 gone], ctl := { releasingCue.ctl with ctx := some x } }
      Settled alone ∧ alone.seq.axis = .releasing ∧ alone.ctl.ctx = some x ∧ x.phase = .starting ∧
        (x.views.map (·.1)).Nodup ∧ memberContents alone.peers 12 = some gone ∧ breaksGroup 9 gone .armed = true) ∧
    (again.seq.axis = .releasing ∧ again.ctl.ctx = some (plainContext .running) ∧
      (plainContext .running).phase ≠ .starting ∧ again.gen.v = 0) ∧
    (homing.seq.axis = .releasing ∧ homing.ctl.ctx = none ∧ homing.seq.startReq = .home ∧ homing.gen.v = 0) := by
  decide +kernel

theorem witness_BrakeSetEntersDestination :
    Settled (running .moving) ∧ (running .moving).seq.axis ≠ .setting ∧
      ∀ d ∈ [SetDest.parked, .suspended, .recovering, .tripped],
        Settled (settingTo d) ∧ (settingTo d).seq.axis = .setting ∧ (settingTo d).seq.dest = d ∧
          isLatched (settingTo d) .brakeSet = false := by decide +kernel

/-- A part with a conversion in flight, a window of loads, and the classes of OVERLOAD, SLACK and LOAD_SENSOR. -/
def converting (s : State) (window : List Int) (overload slack sensor : RespClass) : State :=
  { s with
    meas := { s.meas with converting := true, invalidRun := 3, window := window, filtered := meanOf window }
    store := { s.store with
      live := { Setup.default with clsOverload := overload, clsSlack := slack, clsLoadSensor := sensor } } }

/-- No conversion in flight; a rail value and a good one; a landing cue 30 mm short of its target with 190 N. Each
condition alone under each class: noted; latched; with no cue; as one of three recoveries, as the fourth, beside a stop,
and within a recovery. -/
theorem witness_LoadConversionFiltered :
    let s := { running .moving with meas := { (running .moving).meas with converting := true } }
    let near := { s with gen := { s.gen with s := 4970000000 } }
    let cue (n : Nat) (t : State) : State :=
      { t with ctl := { t.ctl with ctx := some { plainContext .running with recoveries := n } } }
    let rec' (t : State) : State := { t with sup := { t.sup with recovery := some ⟨[.following], none, 0⟩ } }
    let heavy (t : State) : State := converting t [30000, 30000, 30000] .recover .off .latch
    let light (t : State) : State := converting t [100, 100, 100] .latch .recover .latch
    (∀ t ∈ [running .moving, s, near], Settled t ∧ t.held = none ∧ t.seq.axis ≠ .unaddressed) ∧
    (running .moving).meas.converting = false ∧ s.meas.converting = true ∧ s.meas.window.length ≤ 4 ∧
    near.ctl.ctx = some (plainContext .running) ∧ (plainContext .running).record.cue.landing = true ∧
    near.seq.axis = .moving ∧
    distance near.gen.s.toNat ((plainContext .running).record.cue.target * 1000000) ≤
      near.store.live.landingBand * 1000000 ∧
    (19#12) ≠ 0 ∧ (19#12) ≠ 4095 ∧ near.store.live.clsSlack ≠ .off ∧
    Int.tdiv (near.meas.window ++ [((19 : Int) - near.store.live.loadZero) * near.store.live.loadScale]).sum 1 <
      near.store.live.slack ∧
    (∀ t ∈ [converting (running .moving) [30000, 30000, 30000] .note .off .note,
        converting (running .moving) [30000, 30000, 30000] .latch .off .note, heavy (at' .parked),
        heavy (cue 0 (running .moving)), heavy (cue 3 (running .moving)), heavy (cue 0 (running .stopping)),
        rec' (heavy (cue 0 (running .recovering))), light (cue 2 (running .moving)),
        converting (running .moving) [1000] .latch .off .note, converting (running .moving) [1000] .latch .off .latch],
      Settled t ∧ t.held = none ∧ t.seq.axis ≠ .unaddressed ∧ t.meas.converting = true ∧ t.sup.present = [] ∧
        t.meas.window.length ≤ 4 ∧ t.meas.invalidRun = 3) ∧
    ((20000 : Int) < Int.tdiv ([30000, 30000, 30000] ++ [(3000 - 0) * 10]).sum 4 ∧
      Int.tdiv ([100, 100, 100] ++ [(10 - 0) * 10]).sum 4 < (200 : Int)) ∧
    (¬distance (running .moving).gen.s.toNat (5000 * 1000000) ≤ 50 * 1000000) ∧
    (beginsRecovery (running .moving) = true ∧ beginsRecovery (running .stopping) = false) ∧
    nextWith (exec (.loadConversionComplete 3000) (heavy (cue 0 (running .moving)))) (fun t =>
      t.seq.axis = .stopping ∧ t.seq.dest = .recovering ∧ t.ctl.ctx.map (·.recoveries) = some 1) = true ∧
    nextWith (exec (.loadConversionComplete 3000) (heavy (cue 3 (running .moving)))) (fun t =>
      t.seq.dest = .tripped ∧ t.sup.latched = [.overload]) = true ∧
    nextWith (exec (.loadConversionComplete 10) (light (cue 2 (running .moving)))) (fun t =>
      t.seq.dest = .recovering ∧ t.sup.recovery.map (·.conds) = some [.slack]) = true ∧
    nextWith (exec (.loadConversionComplete 0) (converting (running .moving) [1000] .latch .off .latch)) (fun t =>
      t.seq.dest = .tripped ∧ t.sup.latched = [.loadSensor]) = true := by decide +kernel

/-- Tracking in REST, WAKING, PARKED and TRIPPED with the drive off; holding in RELEASING, SETTING, RECOVERING and
TRIPPED with the drive on. -/
theorem witness_PeriodTracksAtRest :
    let holding := { trippedBy .brakeSet with sup := ⟨[], [.brakeSet], false, none⟩ }
    (∀ s ∈ [at' .rest, at' .waking, at' .parked, trippedBy .overload, releasingCue, settingTo .suspended,
        { recoveringCue with gen := { recoveringCue.gen with v := 0 } }, holding],
      Settled s ∧ Unreferencing s ∧ s.gen.homing = none ∧ CalmUnder (speedLimit s) s ∧ s.inp.loopOpen = false) ∧
    ((trippedBy .overload).seq.axis = .tripped ∧ driveEn (trippedBy .overload) = false) ∧
    (holding.seq.axis = .tripped ∧ driveEn holding = true) ∧
    FollowsWithin releasingCue releasingCue.gen.s (periodMeasured releasingCue) := by decide +kernel

/-- The cue moving, at velocity 0 with enable not fresh, and 300 nm short of its target; the same held; a FAST stop that
goes on and one that ends; a following error above the limit under each class. -/
theorem witness_PeriodRunsMove :
    let x := plainContext .running
    let halted := { running .moving with
      gen := { (running .moving).gen with v := 0 }
      ctl := { (running .moving).ctl with enableFresh := false } }
    let last := { running .moving with
      gen := { (running .moving).gen with s := 4999999700, v := 300 }
      meas := { (running .moving).meas with measured := 4999999700, offset := 4999999700 } }
    let heldOn := { running .held with gen := { (running .held).gen with v := 0 } }
    let heldStill := { halted with seq := { halted.seq with axis := .held, hold := some 5 } }
    let fast (v : Nat) : State :=
      let s := running .stopping
      { s with seq := { s.seq with stopKind := .fast, dest := .tripped }, gen := { s.gen with v := v } }
    let stray (k : RespClass) : State :=
      let s := running .moving
      { s with
        meas := { s.meas with offset := 3200000000 }
        store := { s.store with live := { Setup.default with clsFollowing := k } } }
    let within (s : State) (p : PeriodStep) : Prop :=
      FollowsWithin s (steppedPoint plainMove s.gen.s p) (periodMeasured s)
    let run (s : State) : PeriodStep := periodStep s plainMove (periodTarget s x plainMove false)
    (∀ s ∈ [running .moving, halted, last, heldOn, heldStill, fast 400000, fast 100, stray .latch, stray .recover],
      Settled s ∧ Unreferencing s ∧ s.ctl.ctx = some x ∧ s.gen.homing = none ∧ s.inp.loopOpen = false ∧
        CalmUnder plainMove.vmax s ∧ s.ctl.armed = [] ∧ s.inp.brakeReleased = true) ∧
    x.move = some plainMove ∧ x.phase = .running ∧ x.recoveries < 3 ∧
    (∀ s ∈ [running .moving, halted, last, heldOn, heldStill], within s (run s)) ∧
    (∀ s ∈ [running .moving, heldOn], (run s).arrived = false ∧ (run s).v ≠ 0) ∧
    (∀ s ∈ [halted, heldStill], (run s).arrived = false ∧ (run s).v = 0) ∧ (run last).arrived = true ∧
    (∀ s ∈ [fast 400000, fast 100], s.seq.axis = .stopping ∧ s.seq.stopKind = .fast ∧ s.seq.dest = .tripped ∧
      within s (fastPeriod s.gen.v 2000 (remainingTo plainMove s.gen.s))) ∧
    (fastPeriod 400000 2000 (remainingTo plainMove 3000000000)).v = 398000 ∧
    (fastPeriod 100 2000 (remainingTo plainMove 3000000000)).v = 0 ∧
    (∀ k ∈ [RespClass.latch, .recover], ¬within (stray k) (run (stray k)) ∧
      isPresent (stray k) .following = false ∧ (stray k).sup.recovery = none) ∧
    nextWith (exec .profilePeriod (running .moving)) (fun t => t.seq.axis = .moving ∧ t.gen.v ≠ 0) = true ∧
    nextWith (exec .profilePeriod halted) (fun t => t.seq.axis = .held ∧ t.gen.v = 0) = true ∧
    nextWith (exec .profilePeriod heldOn) (fun t => t.seq.axis = .moving) = true ∧
    nextWith (exec .profilePeriod last) (fun t => t.seq.axis = .setting ∧ t.gen.s = 5000000000) = true ∧
    nextWith (exec .profilePeriod (stray .recover)) (fun t => t.seq.dest = .recovering) = true := by decide +kernel

/-- A peer newly LOST at 501 ms, of no running member and of a member of the running group. -/
theorem witness_AgeingMakesLost :
    let old (s : State) : State := { s with peers := s.peers.map fun p => { p with age := 500, fresh := .stale } }
    (∀ s ∈ [old armedAll, old (groupRunning .cue)],
      Settled s ∧ s.held = none ∧ (∀ p ∈ s.peers, p.fresh ≠ .unheard) ∧ newlyLost s.store.live s.peers = [12]) ∧
    (old armedAll).ctl.ctx = none ∧ (old (groupRunning .cue)).seq.axis = .moving ∧
    ((old (groupRunning .cue)).ctl.ctx.map fun x => (x.phase, viewOf x 12)) = some (.running, some .cue) ∧
    (Peer.new 12 true).fresh = .unheard := by decide +kernel

theorem witness_SequencerTimersExpire :
    let held := { running .held with seq := { (running .held).seq with hold := some 0 } }
    (∀ s ∈ [held, at' .parked, settingTo .suspended], Settled s) ∧
    (held.seq.axis = .held ∧ held.seq.hold.isSome = true ∧ held.inp.brakeReleased = true) ∧
    ((at' .parked).seq.axis = .parked ∧ (at' .parked).seq.rest.isSome = true) ∧
    ((settingTo .suspended).seq.axis = .setting ∧ (settingTo .suspended).seq.brake.isSome = true ∧
      (settingTo .suspended).inp.loopOpen = false ∧ isLatched (settingTo .suspended) .estop = false ∧
      (settingTo .suspended).sup.latched.any Condition.isDrop = false) := by decide +kernel

/-- The port with a MARK waiting; a STATUS alone; a REPLY behind a reservation; the ANNOUNCE alone; nothing; attempts
under way of each store, the slots superseded and not, with 0 and 7 failures; bytes that fail the check; the bytes of a
GO and of an ANNOUNCE that another station sends. -/
theorem witness_PortSendsFrames :
    let port (l : LinePort) : State := { at' .parked with line := l }
    let st : Queued Status := ⟨0, none, statusOf (at' .parked)⟩
    let res : Queued ReplyBody := ⟨0, none, .reservation .save 50 6⟩
    let rep : Queued ReplyBody := ⟨0, none, .reply ⟨50, .home, 7, .done, 0⟩⟩
    let mark : Queued MarkBody := ⟨0, none, ⟨7, 1⟩⟩
    let ann : Queued Announce := ⟨0, none, ⟨.lineReset, 0, 3, .good⟩⟩
    let full : LinePort := { LinePort.reset with
      marks := [mark], status := some st, replies := [res, rep], announce := some ann, timer := some 0 }
    let sending (k : Nat) (store : TxStore) (over' : Bool) : State :=
      port { full with attempt := some ⟨store, 5, k, .mark ⟨7, 1⟩, over'⟩ }
    addressed (at' .parked) = true ∧ addressed State.reset = false ∧ LinePort.reset.timer = none ∧
    (port full).line.timer.isSome = true ∧
    ((port full).line.attempt = none ∧ (port full).line.marks = mark :: []) ∧
    (∀ l ∈ [{ full with marks := [] }, { full with marks := [], status := none },
        { full with marks := [], status := none, replies := [res] },
        { full with marks := [], status := none, replies := [res], announce := none }],
      addressed (port l) = true ∧ (port l).line.attempt = none ∧ (port l).line.marks = []) ∧
    (full.replies = [res] ++ rep :: [] ∧ sendable rep.body = true ∧ sendable res.body = false) ∧
    (∀ k ∈ [0, 7], ∀ b ∈ [false, true], ∀ store ∈ [TxStore.mark, .status, .reply [res].length, .announce],
      (sending k store b).line.attempt = some ⟨store, 5, k, .mark ⟨7, 1⟩, b⟩ ∧
        (sending k store b).line.marks = mark :: [] ∧ (sending k store b).line.replies = [res] ++ rep :: []) ∧
    checkPasses [1, 2, 3] = false ∧ receivedFrame (port full) (wireFrame 3 12 0 3 [1]) = none ∧
    receivedFrame (port full) (wireFrame 9 50 0 7 [0, 9]) = some (.go toAll 9) ∧
    (kindSide 9 = some .console ∧ tabledLength 9 = some 2 ∧ (port full).station = 9 ∧
      readFrame 9 toAll [0, 9] = some (.go toAll 9) ∧ readFrame 9 toAll [0] = none) := by decide +kernel

/-- An axis with no cue and nothing armed, and the fullest STATUS: four armed pairs, fourteen items. -/
theorem witness_StatusReadBackByPeer :
    let pairs : List (Nat × Check) := [(1, 0), (2, 0), (3, 0), (999, 0xFFFF)]
    let full : Status := { statusOf (running .moving) with
      armed := pairs
      faults := allConditions.map fun c => (c, true, true) }
    (∀ st ∈ [statusOf (at' .parked), full],
      st.axis ≠ .unaddressed ∧ st.cue ≤ 999 ∧ (st.phase = none ↔ st.cue = 0) ∧ st.progress ≤ 4096 ∧
        st.setPoint < 4294967296 ∧ st.measured < 4294967296 ∧ st.stopPoint < 4294967296 ∧ st.armed.length ≤ 4 ∧
        (∀ p ∈ st.armed, p.1 < 65536) ∧ st.faults.length ≤ 14) := by decide +kernel

end Sys2Proof.Tests
end

/-! PROOFS. What a period in RUN mode does (R32, R33): its three branches, the set-point they lead to, and the two
statements about them. -/

namespace Sys2Proof.Machine

/-! ## Positions -/

theorem toNat_narrowPosition {x : Int} {n : Nat} (hx : x = n) (hn : n < 2 ^ 48) : (narrowPosition x).toNat = n := by
  subst hx
  have hin : (0 : Int) ≤ n ∧ (n : Int) < 281474976710656 := by omega
  simp only [narrowPosition, hin, and_self, if_true, Int.toNat_natCast, BitVec.toNat_ofNat]
  exact Nat.mod_eq_of_lt hn

theorem toNat_forward_up {s : Position} {n : Nat} (h : s.toNat + n < 2 ^ 48) :
    (forward .up s n).toNat = s.toNat + n :=
  toNat_narrowPosition (by omega) h

theorem toNat_forward_down {s : Position} {n : Nat} (h : n ≤ s.toNat) : (forward .down s n).toNat = s.toNat - n :=
  toNat_narrowPosition (by omega) (by have := s.isLt; omega)

@[simp] theorem forward_zero (d : Dir) (s : Position) : forward d s 0 = s := by
  apply BitVec.eq_of_toNat_eq
  cases d with
  | up => exact toNat_forward_up s.isLt
  | down => exact toNat_forward_down s.toNat.zero_le

/-! ## The target -/

theorem moveWithin_of_at_target {m : MoveInputs} {s : Position} (h : s.toNat = m.target) : MoveWithin m s := by
  unfold MoveWithin
  cases m.dir with
  | up => exact h.le
  | down => exact h.ge

theorem remainingTo_of_at_target {m : MoveInputs} {s : Position} (h : s.toNat = m.target) : remainingTo m s = 0 := by
  simp [remainingTo, distance, h]

/-- An advance no longer than the remaining distance is taken off it, and does not pass the target (Law 1). -/
theorem forward_within {m : MoveInputs} {s : Position} {n : Nat} (hs : MoveWithin m s) (ht : m.target < 2 ^ 48)
    (hn : n ≤ remainingTo m s) :
    MoveWithin m (forward m.dir s n) ∧ remainingTo m (forward m.dir s n) + n = remainingTo m s := by
  unfold MoveWithin remainingTo distance at *
  cases hd : m.dir with
  | up =>
    simp only [hd] at hs ⊢
    rw [if_pos hs] at hn ⊢
    rw [toNat_forward_up (by omega), if_pos (by omega)]
    omega
  | down =>
    simp only [hd] at hs ⊢
    have hroom : n ≤ s.toNat - m.target := by split at hn <;> omega
    rw [toNat_forward_down (by omega)]
    split <;> split <;> omega

theorem steppedPoint_of_arrived {m : MoveInputs} {p : PeriodStep} (s : Position) (ht : m.target < 2 ^ 48)
    (hp : p.arrived = true) : (steppedPoint m s p).toNat = m.target := by
  simp only [steppedPoint, hp, if_true, BitVec.toNat_ofNat]
  exact Nat.mod_eq_of_lt ht

theorem steppedPoint_of_not_arrived (m : MoveInputs) (s : Position) {p : PeriodStep} (hp : p.arrived = false) :
    steppedPoint m s p = forward m.dir s p.step := by
  simp [steppedPoint, hp]

/-! ## The branches of a period -/

theorem creepAllowed_iff {rt re vt a : Nat} :
    creepAllowed rt re vt a = true ↔ 0 < rt ∧ rt ≤ a ∧ rt ≤ re ∧ 0 < vt := by
  simp [creepAllowed, and_assoc]

section
variable {v vt a d rt re c : Nat} {p : PeriodStep}
variable (hc : (chooseVelocity v vt a d (min rt re)).1 = c) (hp : runPeriod v vt a d rt re = p)
include hc hp

/-- R33: the creep steps the whole remaining distance. -/
theorem runPeriod_of_creep (h0 : c = 0) (hcreep : creepAllowed rt re vt a = true) :
    p.step = rt ∧ p.v = 0 ∧ p.arrived = true := by
  subst hp
  simp [runPeriod, hc, h0, hcreep]

/-- R32: the chosen velocity reaches the target. -/
theorem runPeriod_of_reach (hreach : rt ≤ c) : p.step = rt ∧ p.v = 0 ∧ p.arrived = true := by
  subst hp
  simp [runPeriod, hc, hreach]

/-- R32: the chosen velocity stays short of the target, and there is no creep. -/
theorem runPeriod_of_short (hcreep : ¬(c = 0 ∧ creepAllowed rt re vt a = true)) (hshort : c < rt) :
    p.step = c ∧ p.v = c ∧ p.arrived = false := by
  subst hp
  simp [runPeriod, hc, if_neg hcreep, if_neg hshort.not_ge]

/-- R32, R33: a period steps to the target and rests there, or steps its chosen velocity short of it. -/
theorem runPeriod_cases :
    ((c = 0 ∧ creepAllowed rt re vt a = true ∨ rt ≤ c) ∧ p.step = rt ∧ p.v = 0 ∧ p.arrived = true) ∨
      (c < rt ∧ p.step = c ∧ p.v = c ∧ p.arrived = false) := by
  by_cases hcreep : c = 0 ∧ creepAllowed rt re vt a = true
  · exact .inl ⟨.inl hcreep, runPeriod_of_creep hc hp hcreep.1 hcreep.2⟩
  · rcases le_or_gt rt c with hreach | hshort
    · exact .inl ⟨.inr hreach, runPeriod_of_reach hc hp hreach⟩
    · exact .inr ⟨hshort, runPeriod_of_short hc hp hcreep hshort⟩

end

/-! ## The statements -/

/-- Settles O22, by the two outcomes of a period: at the target, or an advance of the chosen velocity short of it. -/
theorem stepNeverPassesTarget : Obligations.StepNeverPassesTarget := by
  intro v vt a d re m s hs ht rt c p
  rcases runPeriod_cases (c := c) (p := p) rfl rfl with ⟨hends, hstep, hv, harr⟩ | ⟨hshort, hstep, hv, harr⟩
  · have hpoint : (steppedPoint m s p).toNat = m.target := steppedPoint_of_arrived s ht harr
    have hmin (hcreep : ¬(c = 0 ∧ creepAllowed rt re vt a = true)) : p.step = min c rt :=
      hstep.trans (min_eq_right (hends.resolve_left hcreep)).symm
    have hleft : remainingTo m (steppedPoint m s p) + p.step = rt := by
      rw [remainingTo_of_at_target hpoint, hstep, Nat.zero_add]
    exact ⟨fun hcreep => ⟨hmin hcreep, by simp [harr]⟩, fun _ _ => harr, hstep.le, iff_of_true harr hstep,
      fun _ => ⟨hv, hpoint⟩, moveWithin_of_at_target hpoint, hleft⟩
  · have hlt : p.step < rt := hstep.trans_lt hshort
    have hmin : p.step = min c rt := hstep.trans (min_eq_left hshort.le).symm
    obtain ⟨hwithin, hleft⟩ := forward_within hs ht hlt.le
    rw [← steppedPoint_of_not_arrived m s harr] at hwithin hleft
    exact ⟨fun _ => ⟨hmin, fun _ => hv⟩, fun _ _ => by omega, hlt.le, iff_of_false (by simp [harr]) hlt.ne,
      by simp [harr], hwithin, hleft⟩

/-- Settles O23: under the three conditions the period is the creep of R33, and without them a step of 0. -/
theorem creepReachesTarget : Obligations.CreepReachesTarget := by
  intro v vt a d re m s ht rt p hc hrt
  refine ⟨fun ha he hvt => ?_, fun hcond => ?_⟩
  · obtain ⟨hstep, hv, harr⟩ := runPeriod_of_creep (p := p) hc rfl rfl (creepAllowed_iff.2 ⟨hrt, ha, he, hvt⟩)
    exact ⟨hstep, hv, harr, steppedPoint_of_arrived s ht harr⟩
  · obtain ⟨hstep, hv, harr⟩ := runPeriod_of_short (p := p) hc rfl
      (fun hcreep => hcond (creepAllowed_iff.1 hcreep.2).2) hrt
    have hpoint : steppedPoint m s p = s := by rw [steppedPoint_of_not_arrived m s harr, hstep, forward_zero]
    exact ⟨hstep, hv, harr, hpoint⟩

end Sys2Proof.Machine

/-! PROOFS. The pacing of a group (R99): the least counted progress as a minimum, the branches of the pacing velocity,
and the statement about them. -/

namespace Sys2Proof.Machine

/-! ## The least counted progress -/

/-- pmin is the library's minimum of the values that count. -/
theorem leastCounted_eq_min? (l : List (Option Nat)) : leastCounted l = l.reduceOption.min? := by
  induction l with
  | nil => rfl
  | cons x rest ih =>
    cases x with
    | none => rw [leastCounted, ih, List.reduceOption_cons_of_none]
    | some a =>
      rw [leastCounted, ih, List.reduceOption_cons_of_some, List.min?_cons]
      cases rest.reduceOption.min? <;> rfl

theorem leastCounted_eq_some_iff {l : List (Option Nat)} {pmin : Nat} :
    leastCounted l = some pmin ↔ some pmin ∈ l ∧ ∀ q, some q ∈ l → pmin ≤ q := by
  simp only [leastCounted_eq_min?, List.min?_eq_some_iff, List.reduceOption_mem_iff]

theorem leastCounted_eq_none_iff {l : List (Option Nat)} : leastCounted l = none ↔ ∀ q, some q ∉ l := by
  simp only [leastCounted_eq_min?, List.min?_eq_none_iff, List.eq_nil_iff_forall_not_mem, List.reduceOption_mem_iff]

/-! ## The pacing velocity -/

section
variable {vlim skew own pmin lead : Nat}

theorem pacingVelocity_of_no_lead (h : own ≤ pmin) : pacingVelocity vlim skew own (some pmin) = vlim :=
  if_pos h

theorem pacingVelocity_of_lead (h : 0 < lead) (hskew : lead < skew) :
    pacingVelocity vlim skew (pmin + lead) (some pmin) = vlim * (skew - lead) / skew := by
  have hlead : ¬pmin + lead ≤ pmin := by omega
  rw [pacingVelocity, if_neg hlead, Nat.add_sub_cancel_left, if_neg hskew.not_ge]

/-- A skew of 0 is left out: with it, the velocity without a lead is still Vlim. -/
theorem pacingVelocity_of_skew (hpos : 0 < skew) (h : pmin + skew ≤ own) :
    pacingVelocity vlim skew own (some pmin) = 0 := by
  rw [pacingVelocity, if_neg (by omega), if_pos (by omega)]

/-- The proportional branch takes the fraction (skew - lead) / skew ≤ 1 of Vlim. -/
theorem proportional_le (vlim skew lead : Nat) : vlim * (skew - lead) / skew ≤ vlim :=
  Nat.div_le_of_le_mul <| calc
    vlim * (skew - lead) ≤ vlim * skew := Nat.mul_le_mul_left vlim (Nat.sub_le skew lead)
    _ = skew * vlim := Nat.mul_comm vlim skew

theorem pacingVelocity_le (vlim skew own : Nat) (least : Option Nat) :
    pacingVelocity vlim skew own least ≤ vlim := by
  cases least with
  | none => exact le_rfl
  | some pmin =>
    rw [pacingVelocity]
    split
    · exact le_rfl
    · split
      · exact Nat.zero_le vlim
      · exact proportional_le vlim skew (own - pmin)

end

/-! ## The statement -/

/-- Settles O24: one clause for each branch of the pacing velocity, its bound, and pmin as a minimum. -/
theorem pacingFollowsLead : Obligations.PacingFollowsLead := by
  intro vlim skew own pmin hskew
  refine ⟨rfl, pacingVelocity_of_no_lead, pacingVelocity_of_skew hskew, ?_,
    pacingVelocity_le vlim skew own (some pmin), fun _ => leastCounted_eq_some_iff, fun _ => leastCounted_eq_none_iff⟩
  rintro lead rfl hpos hlt
  exact pacingVelocity_of_lead hpos hlt

end Sys2Proof.Machine


/-! PROOFS. What any operation can do, said once. `Act` lists the elementary changes of state from which every shared
operation and nearly every command is made, each with what is known where it happens; `Acts` is any number of them. One
lemma per operation shows that it is made of them, and each invariant is then a case analysis over `Act`. -/

namespace Sys2Proof.Machine

/-! ## The elementary changes -/

/-- Latching the condition cannot change whether a TRIPPED axis keeps its drive on (R2). -/
def harmless (c : Condition) : Bool := !c.isDrop && decide (c ≠ .estop) && decide (c ≠ .brakeSet)

/-- The stations of a peer table, in its order. -/
def stations (ps : List Peer) : List Nat := ps.map (·.station)

/-- What a command may do that not every operation may: in PROFILE_PERIOD ENCODER becomes present and the reference is
lost, at ESTOP_LOOP_OPEN the loop opens. A calm operation makes no follow delay stand at 0. -/
inductive Freedom where
  | strict | period | loop | calm

/-- An armed cue whose delay stands at 0, or that becomes so when the running cue ends (R76, R77). -/
def Hot (a : ArmedCue) : Prop := a.trigger = some (.delaying 0) ∨ a.trigger = some .pending

/-- With none PENDING before, every armed cue that is hot after was so before. -/
def Calms (l l' : List ArmedCue) : Prop :=
  (∀ a ∈ l, a.trigger ≠ some .pending) →
    ∀ a' ∈ l', Hot a' → ∃ a ∈ l, a.cue = a'.cue ∧ a.trigger = a'.trigger

theorem Calms.of_subset {l l' : List ArmedCue} (h : l' ⊆ l) : Calms l l' := fun _ a ha _ => ⟨a, h ha, rfl, rfl⟩

/-- One elementary change. `starts` admits the start of a cue, `free` what its command alone may do. -/
inductive Act (starts : Bool) (free : Freedom) : State → State → Prop
  | axis (a : AxisState) (s : State) (leaves : s.seq.axis ≠ .tripped) (enters : a ≠ .tripped)
      (addressed : a ≠ .unaddressed) : Act starts free s (setAxis a s)
  | trip (o : CueOutcome) (s : State) : Act starts free s (enterTripped o s)
  | seq (f : Sequencer → Sequencer) (s : State) (same : (f s.seq).axis = s.seq.axis) : Act starts free s (s.onSeq f)
  | drive (s : State) : Act starts free s (followDrive s)
  | control (f : CueControl → CueControl) (s : State)
      (fewer : ((f s.ctl).armed.map (·.cue)).Sublist (armedNumbers s))
      (same : ∀ y, (f s.ctl).ctx = some y → ∃ x, s.ctl.ctx = some x ∧ y.record = x.record)
      (calms : free = .calm → Calms s.ctl.armed (f s.ctl).armed) : Act starts free s (s.onCtl f)
  | begin (r : CueRecord) (s : State) (admitted : starts = true) (allowed : startAllowed s = true)
      (homed : s.meas.referenced = true) :
      Act starts free s (s.onCtl fun c =>
        { c with
          armed := c.armed.filter fun a => decide (a.cue ≠ r.cue.number)
          ctx := some (newContext s.station s.peers r) })
  | restart (s : State) (admitted : starts = true) :
      Act starts free s (s.onGen fun g => { g with progress := 0, fired := [] })
  | arm (r : CueRecord) (window : Nat) (s : State) (untripped : s.seq.axis ≠ .tripped)
      (room : s.ctl.armed.length < 4) (unarmed : isArmed s r.cue.number = false)
      (notRunning : isRunning s r.cue.number = false) :
      Act starts free s (s.onCtl fun c => { c with armed := c.armed ++ [armedEntry r window] })
  | gen (f : Generator → Generator) (s : State) (rises : s.gen.progress ≤ (f s.gen).progress) :
      Act starts free s (s.onGen f)
  | meas (f : Measure → Measure) (s : State) (pending : (f s.meas).pendingDuty = s.meas.pendingDuty)
      (active : (f s.meas).activeDuty = s.meas.activeDuty)
      (reference : (f s.meas).referenced = false → s.meas.referenced = false)
      (load : LoadLawful s → LoadLawful (s.onMeas f)) : Act starts free s (s.onMeas f)
  | unreference (s : State) (admitted : free = .period) :
      Act starts free s (s.onMeas fun m => { m with referenced := false })
  | duty (d : Nat) (s : State) (range : 1 ≤ d ∧ d ≤ 4095) : Act starts free s (writeDuty d s)
  | boundary (s : State) : Act starts free s (s.onMeas fun m => { m with activeDuty := m.pendingDuty })
  | peers (f : List Peer → List Peer) (s : State) (fewer : (stations (f s.peers)).Sublist (stations s.peers)) :
      Act starts free s (s.onPeers f)
  | join (r : CueRecord) (s : State) (known : r ∈ s.table) (fit : peersFit s.station s.peers r.cue = true) :
      Act starts free s (s.onPeers (joinPeers s.station r.cue))
  | guard (f : ClearanceGuard → ClearanceGuard) (s : State) : Act starts free s (s.onGuard f)
  | sup (f : Supervision → Supervision) (s : State) (latched : (f s.sup).latched = s.sup.latched)
      (fewer : (f s.sup).present.Sublist s.sup.present) : Act starts free s (s.onSup f)
  | present (c : Condition) (s : State) (admitted : free = .period ∨ c ≠ .encoder) :
      Act starts free s (s.onSup fun p => { p with present := insertCondition c p.present })
  | latch (c : Condition) (s : State) (harm : s.seq.axis ≠ .tripped ∨ harmless c = true) :
      Act starts free s (latch c s)
  | drop (c : Condition) (s : State) : Act starts free s (followDrive (Machine.latch c s))
  | unlatch (s : State) (untripped : s.seq.axis ≠ .tripped) : Act starts free s (dropAbsent s)
  | rest (s : State) (empty : (dropAbsent s).sup.latched = []) : Act starts free s (setAxis .rest (dropAbsent s))
  | relatch (s : State) : Act starts free s (followDrive (dropAbsent s))
  | line (f : LinePort → LinePort) (s : State) (marks : (f s.line).marks.length ≤ 4 ∨ (f s.line).marks.length ≤ s.line.marks.length)
      (replies : (f s.line).replies.length ≤ s.line.replies.length) (due : s.line.statusDue ≤ (f s.line).statusDue) :
      Act starts free s (s.onLine f)
  | reply (b : ReplyBody) (s : State) (room : replyFree s = true) : Act starts free s (queueReply b s)
  | input (f : Inputs → Inputs) (s : State)
      (admitted : free = .loop ∨ ((f s.inp).loopOpen = true → s.inp.loopOpen = true)) : Act starts free s (s.onInp f)

/-- Any number of elementary changes, one after another. -/
abbrev Acts (starts : Bool) (free : Freedom) : State → State → Prop := Relation.ReflTransGen (Act starts free)

/-- What every elementary change keeps, any number of them keep. -/
theorem Acts.keeps {starts : Bool} {free : Freedom} {P : State → Prop} (h : ∀ s t, Act starts free s t → P s → P t) {s t : State}
    (acts : Acts starts free s t) (hs : P s) : P t := by
  induction acts with
  | refl => exact hs
  | tail _ act ih => exact h _ _ act ih

/-! ## One lemma per operation -/

section operations
variable {b : Bool} {f : Freedom} {s t : State}

theorem Acts.foldl {α : Type} {op : State → α → State} (hop : ∀ u a, Acts b f s u → Acts b f s (op u a)) (l : List α)
    (h : Acts b f s t) : Acts b f s (l.foldl op t) := by
  induction l generalizing t with
  | nil => exact h
  | cons a l ih => exact ih (hop _ a h)

/-- A change of cue control that leaves the armed list and the context's record as they are. -/
theorem Acts.control_same (h : Acts b f s t) {g : CueControl → CueControl} (ha : (g t.ctl).armed = t.ctl.armed)
    (hc : (g t.ctl).ctx = t.ctl.ctx) : Acts b f s (t.onCtl g) :=
  h.tail (.control g t (by rw [ha]; exact List.Sublist.refl _) (fun y hy => ⟨y, by rw [← hc, hy], rfl⟩)
    fun _ => .of_subset (by rw [ha]; exact List.Subset.refl _))

theorem recordEvent_acts (e : CueEvent) (h : Acts b f s t) : Acts b f s (recordEvent e t) := h.control_same rfl rfl

theorem onCtx_acts {g : CueContext → CueContext} (hg : ∀ x, (g x).record = x.record) (h : Acts b f s t) :
    Acts b f s (onCtx g t) :=
  h.tail (.control _ t (List.Sublist.refl _)
    (fun y hy => by
      obtain ⟨x, hx, rfl⟩ := Option.map_eq_some_iff.1 hy
      exact ⟨x, hx, hg x⟩)
    fun _ => .of_subset (List.Subset.refl _))

theorem onRun_acts (g : HomingRun → HomingRun) (h : Acts b f s t) : Acts b f s (onRun g t) := h.control_same rfl rfl

theorem onGen_acts {g : Generator → Generator} (hg : (g t.gen).progress = t.gen.progress) (h : Acts b f s t) :
    Acts b f s (t.onGen g) := h.tail (.gen g t hg.ge)

theorem onHoming_acts (g : HomingInputs → HomingInputs) (h : Acts b f s t) : Acts b f s (onHoming g t) :=
  onGen_acts rfl h

theorem onSeq_acts {g : Sequencer → Sequencer} (hg : ∀ q, (g q).axis = q.axis) (h : Acts b f s t) :
    Acts b f s (t.onSeq g) := h.tail (.seq g t (hg _))

theorem onSup_acts {g : Supervision → Supervision} (hl : ∀ p, (g p).latched = p.latched)
    (hp : ∀ p, (g p).present = p.present) (h : Acts b f s t) : Acts b f s (t.onSup g) :=
  h.tail (.sup g t (hl _) (by rw [hp]))

theorem queueMark_acts (n i : Nat) (h : Acts b f s t) : Acts b f s (queueMark n t i) := by
  refine h.tail (.line _ t ?_ ?_ ?_) <;> split <;> simp
  omega

theorem noteChange_acts (h : Acts b f s t) : Acts b f s (t.onLine noteChange) :=
  h.tail (.line _ t (.inr le_rfl) le_rfl (Nat.le_succ _))

theorem dwellFollow_acts (h : Acts b f s t) : Acts b f s (dwellFollow t) := onSup_acts (fun _ => rfl) (fun _ => rfl) h

theorem setAxis_acts {a : AxisState} (ha : a ≠ .tripped) (hu : a ≠ .unaddressed) (h : Acts b f s t)
    (ht : t.seq.axis ≠ .tripped) : Acts b f s (setAxis a t) := h.tail (.axis a t ht ha hu)

theorem releasePeers_stations (n : Nat) (ps : List Peer) : (stations (releasePeers n ps)).Sublist (stations ps) := by
  have h : stations (ps.map fun p => { p with holdings := p.holdings.filter fun h => decide (h.cue ≠ n) }) =
      stations ps := by simp [stations, Function.comp_def]
  rw [← h]
  exact List.filter_sublist.map _

theorem releaseCue_acts (n : Nat) (h : Acts b f s t) : Acts b f s (releaseCue n t) :=
  h.tail (.peers _ t (releasePeers_stations n _))

theorem disarm_acts (r : DisarmReason) (n : Nat) (h : Acts b f s t) : Acts b f s (disarm r t n) :=
  recordEvent_acts _ (releaseCue_acts n (h.tail (.control _ t (List.filter_sublist.map _)
    (fun y hy => ⟨y, hy, rfl⟩) fun _ => .of_subset (List.filter_subset_self _))))

theorem disarmAll_acts (r : DisarmReason) (h : Acts b f s t) : Acts b f s (disarmAll r t) :=
  h.foldl (fun _ n hu => disarm_acts r n hu) _

theorem Acts.armed_map (h : Acts b f s t) {g : ArmedCue → ArmedCue} (hg : ∀ a, (g a).cue = a.cue)
    (hc : f = .calm → ∀ a, a.trigger ≠ some .pending → Hot (g a) → a.trigger = (g a).trigger) :
    Acts b f s (t.onCtl fun c => { c with armed := c.armed.map g }) := by
  refine h.tail (.control _ t (by simp [armedNumbers, Function.comp_def, hg]) (fun y hy => ⟨y, hy, rfl⟩)
    fun hf hp a' ha' hot => ?_)
  obtain ⟨a, ha, rfl⟩ := List.mem_map.1 ha'
  exact ⟨a, ha, (hg a).symm, hc hf a (hp a ha) hot⟩

theorem moveChains_acts (o : CueOutcome) (h : Acts b f s t) : Acts b f s (moveChains o t) := by
  unfold moveChains; split
  · refine h.armed_map (fun a => by split <;> rfl) fun _ a hp _ => ?_
    rw [if_neg hp]
  · exact h.foldl (fun _ n hu => disarm_acts _ n hu) _

theorem removeContext_acts (x : CueContext) (o : CueOutcome) (r : Nat) (h : Acts b f s t) :
    Acts b f s (removeContext x o r t) :=
  releaseCue_acts _ (onSup_acts (fun _ => rfl) (fun _ => rfl) (onGen_acts rfl ((recordEvent_acts _ h).tail
    (.control _ _ (List.Sublist.refl _) (fun y hy => by cases hy) fun _ => .of_subset (List.Subset.refl _)))))

theorem endCue_acts (o : CueOutcome) (h : Acts b f s t) : Acts b f s (endCue o t) := by
  unfold endCue; split
  · exact h
  · exact moveChains_acts _ (removeContext_acts _ _ _ h)

theorem closeHoming_acts (r : HomingResult) (h : Acts b f s t) : Acts b f s (closeHoming r t) :=
  onGen_acts (g := fun g => { g with homing := none }) rfl
    ((recordEvent_acts (.homingEnded r) h).control_same (g := fun c => { c with homing := none }) rfl rfl)

theorem enterTripped_acts (o : CueOutcome) (h : Acts b f s t) : Acts b f s (enterTripped o t) := h.tail (.trip o t)

theorem latch_acts {c : Condition} (hc : t.seq.axis ≠ .tripped ∨ harmless c = true) (h : Acts b f s t) :
    Acts b f s (latch c t) := h.tail (.latch c t hc)

/-- A DROP demand, its condition latched (R18). -/
theorem dropDemand_latch_acts (c : Condition) (h : Acts b f s t) : Acts b f s (dropDemand c (latch c t)) := by
  unfold dropDemand; split
  · rename_i ha; exact latch_acts (.inl (by rw [latch_seq] at ha; simp [ha])) h
  · exact h.tail (.drop c t)
  · rename_i _ ht; exact enterTripped_acts _ (latch_acts (.inl ht) h)

theorem confirmSet_acts (h : Acts b f s t) (ht : t.seq.axis ≠ .tripped) : Acts b f s (confirmSet t) := by
  unfold confirmSet; split
  · exact setAxis_acts (by decide) (by decide) h ht
  · exact setAxis_acts (by decide) (by decide) h ht
  · exact setAxis_acts (by decide) (by decide) h ht
  · exact enterTripped_acts _ h

theorem enterSetting_acts (d : SetDest) (h : Acts b f s t) (ht : t.seq.axis ≠ .tripped) :
    Acts b f s (enterSetting d t) := by
  have h1 : Acts b f s ((setAxis .setting t).onSeq fun q =>
      { q with dest := d, brake := some (setAxis .setting t).store.live.brakeTime }) :=
    onSeq_acts (fun _ => rfl) (setAxis_acts (by decide) (by decide) h ht)
  unfold enterSetting; dsimp only; split
  · exact h1
  · exact confirmSet_acts h1 (by simp)

theorem enterStopping_acts (k : StopKind) (d : SetDest) (h : Acts b f s t) (ht : t.seq.axis ≠ .tripped) :
    Acts b f s (enterStopping k d t) := onSeq_acts (fun _ => rfl) (setAxis_acts (by decide) (by decide) h ht)

theorem recordHoming_acts (h : Acts b f s t) : Acts b f s (recordHoming t) := by
  unfold recordHoming; split
  · exact onGen_acts rfl h
  · exact closeHoming_acts _ h

theorem abandonHoming_acts (h : Acts b f s t) : Acts b f s (abandonHoming t) := recordHoming_acts (onRun_acts _ h)

theorem failContext_acts (c : Condition) (h : Acts b f s t) : Acts b f s (failContext c t) :=
  onCtx_acts (fun _ => rfl) h

@[simp] theorem onCtx_seq (g : CueContext → CueContext) (s : State) : (onCtx g s).seq = s.seq := rfl
@[simp] theorem onRun_seq (g : HomingRun → HomingRun) (s : State) : (onRun g s).seq = s.seq := rfl
@[simp] theorem onHoming_seq (g : HomingInputs → HomingInputs) (s : State) : (onHoming g s).seq = s.seq := rfl
@[simp] theorem recordEvent_seq (e : CueEvent) (s : State) : (recordEvent e s).seq = s.seq := rfl
@[simp] theorem failContext_seq (c : Condition) (s : State) : (failContext c s).seq = s.seq := rfl
@[simp] theorem setEnding_seq (o : CueOutcome) (s : State) : (setEnding o s).seq = s.seq := rfl
@[simp] theorem setTrigger_seq (n : Nat) (g : Trigger) (s : State) : (setTrigger n g s).seq = s.seq := rfl
@[simp] theorem closeHoming_seq (r : HomingResult) (s : State) : (closeHoming r s).seq = s.seq := rfl
@[simp] theorem recordHoming_seq (s : State) : (recordHoming s).seq = s.seq := by
  unfold recordHoming; split <;> rfl
@[simp] theorem abandonHoming_seq (s : State) : (abandonHoming s).seq = s.seq := by simp [abandonHoming]
@[simp] theorem queueMark_seq (n i : Nat) (s : State) : (queueMark n s i).seq = s.seq := rfl
@[simp] theorem retake_seq (s : State) : (retake s).seq = s.seq := by
  simp only [retake, fireMarks]; split
  · rfl
  · split
    · rfl
    · rw [foldl_queueMark]; rfl

theorem fastLatch_acts (c : Condition) (h : Acts b f s t) : Acts b f s (fastLatch c t) := by
  have hf := failContext_acts c h
  unfold fastLatch; split
  all_goals rename_i ha
  · exact h
  · exact h
  · exact enterStopping_acts _ _ hf (by simp [ha])
  · exact enterStopping_acts _ _ hf (by simp [ha])
  · exact enterStopping_acts _ _ hf (by simp [ha])
  · exact onSeq_acts (fun _ => rfl) hf
  · exact enterSetting_acts _ hf (by simp [ha])
  · exact onSeq_acts (fun _ => rfl) hf
  all_goals exact enterTripped_acts _ h

theorem fastRecoverCue_acts (h : Acts b f s t) : Acts b f s (fastRecoverCue t) := by
  unfold fastRecoverCue; split
  all_goals try rename_i ha
  · exact enterStopping_acts _ _ h (by simp [ha])
  · exact enterStopping_acts _ _ h (by simp [ha])
  · exact onSeq_acts (fun _ => rfl) h
  · exact enterSetting_acts _ h (by simp [ha])
  · exact onSeq_acts (fun _ => rfl) h
  · exact setAxis_acts (by decide) (by decide) h (by simp [ha])
  · exact onSeq_acts (fun _ => rfl) h
  all_goals exact h

theorem fastRecoverIdle_acts (h : Acts b f s t) : Acts b f s (fastRecoverIdle t) := by
  unfold fastRecoverIdle; split
  all_goals try rename_i ha
  · exact enterStopping_acts _ _ (onRun_acts _ h) (by simp [ha])
  · exact onSeq_acts (fun _ => rfl) h
  · exact enterSetting_acts _ (abandonHoming_acts h) (by simp [ha])
  all_goals exact h

theorem beginsRecovery_untripped (h : beginsRecovery s = true) : s.seq.axis ≠ .tripped := by
  intro ha; simp [beginsRecovery, ha] at h

theorem recoverOccurrence_acts (c : Condition) (h : Acts b f s t) : Acts b f s (recoverOccurrence c t) := by
  unfold recoverOccurrence; split
  · exact fastRecoverIdle_acts h
  · split
    · exact fastRecoverCue_acts (dwellFollow_acts (onSup_acts (fun _ => rfl) (fun _ => rfl) h))
    · split
      · rename_i hb
        split
        · exact fastRecoverCue_acts (onSup_acts (fun _ => rfl) (fun _ => rfl) (onCtx_acts (fun _ => rfl) h))
        · exact fastLatch_acts c (latch_acts (.inl (beginsRecovery_untripped hb)) h)
      · exact fastRecoverCue_acts h

theorem respond_acts {c : Condition} (hc : c.isDrop = true ∨ harmless c = true) (h : Acts b f s t) :
    Acts b f s (respond c t) := by
  unfold respond; split
  · unfold latchDemand; split
    · exact dropDemand_latch_acts c h
    · rename_i hd; exact fastLatch_acts c (latch_acts (.inr (hc.resolve_left hd)) h)
  · exact recoverOccurrence_acts c h
  · exact h
  · exact h

theorem markPresent_acts {c : Condition} (hc : f = .period ∨ c ≠ .encoder) (h : Acts b f s t) :
    Acts b f s (markPresent c t) := dwellFollow_acts (h.tail (.present c t hc))

theorem markAbsent_acts (c : Condition) (h : Acts b f s t) : Acts b f s (markAbsent c t) :=
  dwellFollow_acts (h.tail (.sup _ t rfl List.filter_sublist))

theorem evaluate_acts {c : Condition} (hc : f = .period ∨ c ≠ .encoder) (hl : c.isDrop = true ∨ harmless c = true) (d : Bool)
    (h : Acts b f s t) : Acts b f s (evaluate c d t) := by
  unfold evaluate; split
  · split
    · exact h
    · exact respond_acts hl (markPresent_acts hc h)
  · exact markAbsent_acts c h

theorem setEnding_acts (o : CueOutcome) (h : Acts b f s t) : Acts b f s (setEnding o t) := onCtx_acts (fun _ => rfl) h

theorem controlledPath_acts (o : CueOutcome) (h : Acts b f s t) : Acts b f s (controlledPath o t) := by
  have he := endCue_acts o h
  have hs := setEnding_acts o h
  unfold controlledPath; split
  all_goals try rename_i ha
  · exact onSeq_acts (fun _ => rfl) he
  · exact enterSetting_acts _ he (by simp [ha])
  · exact enterStopping_acts _ _ hs (by simp [ha])
  · exact enterSetting_acts _ he (by simp [ha])
  · exact setAxis_acts (by decide) (by decide) he (by simp [ha])
  · exact setAxis_acts (by decide) (by decide) he (by simp [ha])
  · split
    · exact onSeq_acts (fun _ => rfl) he
    · exact hs
  · exact onSeq_acts (fun _ => rfl) hs
  all_goals exact hs

theorem controlledEnd_acts (o : CueOutcome) (h : Acts b f s t) : Acts b f s (controlledEnd o t) := by
  unfold controlledEnd; split
  · exact h
  · split
    · exact controlledPath_acts o h
    · exact h

theorem fireMarks_acts (old : Position) (h : Acts b f s t) : Acts b f s (fireMarks old t) := by
  unfold fireMarks; split
  · exact h
  · split
    · exact h
    · exact Acts.foldl (fun _ i hu => queueMark_acts _ i hu) _ (onGen_acts rfl h)

theorem retake_acts (h : Acts b f s t) : Acts b f s (retake t) := fireMarks_acts _ (onGen_acts rfl h)

theorem groupTest_acts (n : Nat) (h : Acts b f s t) : Acts b f s (groupTest t n) := by
  unfold groupTest; split
  · exact h
  · split
    · split
      · exact controlledEnd_acts _ h
      · exact h
    · exact h

theorem groupTestAll_acts (h : Acts b f s t) : Acts b f s (groupTestAll t) := by
  unfold groupTestAll; split
  · exact h
  · exact h.foldl (fun _ n hu => groupTest_acts n hu) _

theorem fixStart_acts (x : CueContext) (h : Acts b f s t) : Acts b f s (fixStart x t) :=
  fireMarks_acts _ (onGen_acts rfl (onCtx_acts (fun _ => rfl) h))

@[simp] theorem fixStart_seq (x : CueContext) (s : State) : (fixStart x s).seq = s.seq := by
  simp only [fixStart, fireMarks]; split
  · rfl
  · split
    · rfl
    · rw [foldl_queueMark]; rfl

theorem enterHoming_acts (h : Acts b f s t) (ht : t.seq.axis ≠ .tripped) : Acts b f s (enterHoming t) := by
  have h1 := (setAxis_acts (a := .homing) (by decide) (by decide) h ht).tail
    (.meas (fun m => { m with capture := .armed }) _ rfl rfl id id)
  have h2 := onRun_acts (fun r => { r with referenced := false }) (h1.tail (.guard (fun g => { g with notice := false }) _))
  unfold enterHoming
  exact onGen_acts rfl h2

theorem completeRelease_acts (h : Acts b f s t) (ht : t.seq.axis ≠ .tripped) : Acts b f s (completeRelease t) := by
  unfold completeRelease; split
  · split
    · exact groupTestAll_acts (setAxis_acts (by decide) (by decide) (fixStart_acts _ h) (by simpa))
    · exact setAxis_acts (by decide) (by decide) h ht
  · split
    · exact enterHoming_acts h ht
    · exact h

theorem beginRelease_acts (r : StartRequest) (h : Acts b f s t) (ht : t.seq.axis ≠ .tripped) :
    Acts b f s (beginRelease r t) := by
  have h1 : Acts b f s ((setAxis .releasing (retake t)).onSeq fun q =>
      { q with startReq := r, brake := some (setAxis .releasing (retake t)).store.live.brakeTime }) :=
    onSeq_acts (fun _ => rfl) (setAxis_acts (by decide) (by decide) (retake_acts h) (by simpa))
  have h2 := h1.foldl (op := fun t c => recoverOccurrence c t) (fun _ c hu => recoverOccurrence_acts c hu)
    (releaseOccurrences ((setAxis .releasing (retake t)).onSeq fun q =>
      { q with startReq := r, brake := some (setAxis .releasing (retake t)).store.live.brakeTime }))
  unfold beginRelease; dsimp only; split
  · rename_i hr
    exact completeRelease_acts h2 (by rw [hr.1]; decide)
  · exact h2

theorem seeReady_acts (h : Acts b f s t) : Acts b f s (seeReady t) := by
  unfold seeReady; split
  · exact onSup_acts (fun _ => rfl) (fun _ => rfl) h
  · exact h

@[simp] theorem seeReady_seq (s : State) : (seeReady s).seq = s.seq := by unfold seeReady; split <;> rfl

theorem completeWake_acts (h : Acts b f s t) (ht : t.seq.axis ≠ .tripped) : Acts b f s (completeWake t) := by
  have h1 := setAxis_acts (a := .parked) (by decide) (by decide) (seeReady_acts h) (by simpa)
  unfold completeWake; dsimp only; split
  · exact h1
  · exact beginRelease_acts _ h1 (by simp)
  · exact beginRelease_acts _ h1 (by simp)
  · exact setAxis_acts (by decide) (by decide) h1 (by simp)

theorem enterWaking_acts (r : StartRequest) (h : Acts b f s t) (ht : t.seq.axis ≠ .tripped) :
    Acts b f s (enterWaking r t) := by
  have h1 : Acts b f s ((setAxis .waking t).onSeq fun q =>
      { q with startReq := r, wake := some (setAxis .waking t).store.live.wakeTimeout }) :=
    onSeq_acts (fun _ => rfl) (setAxis_acts (by decide) (by decide) h ht)
  unfold enterWaking; dsimp only; split
  · exact completeWake_acts h1 (by simp)
  · exact h1

theorem requestStart_acts (r : StartRequest) (h : Acts b f s t) : Acts b f s (requestStart r t) := by
  unfold requestStart; split
  all_goals try rename_i ha
  · exact enterWaking_acts r h (by simp [ha])
  · exact onSeq_acts (fun _ => rfl) h
  · exact beginRelease_acts r h (by simp [ha])
  all_goals exact h

theorem setTrigger_acts (n : Nat) (h : Acts b f s t) : Acts b f s (setTrigger n .waiting t) := by
  refine h.armed_map (fun a => by split <;> rfl) fun _ a _ hot => ?_
  split at hot
  · rcases hot with hot | hot <;> cases hot
  · rename_i hn; rw [if_neg hn]

/-! ### Starts -/

theorem startRefusal_none {r : CueRecord} (h : startRefusal s r = none) :
    startAllowed s = true ∧ s.meas.referenced = true ∧ s.ctl.enableFresh = true ∧
      groupVerdict s.station s.peers r = none := by
  unfold startRefusal at h
  split at h
  · cases h
  · split at h
    · cases h
    · split at h
      · cases h
      · simp_all

theorem startRefusal_of_busy (r : CueRecord) (h : startAllowed s = false) : startRefusal s r = some .busy := by
  simp [startRefusal, h]

/-- The end of a cue inside the band: its progress stands at 4096 (R68, R73). -/
theorem endInBand_acts (h : Acts true f s t) : Acts true f s (endInBand t) := by
  unfold endInBand; split
  · exact h
  · refine moveChains_acts _ (removeContext_acts _ _ _ ?_)
    have h1 := h.tail (.restart t rfl)
    have h2 := h1.tail (.gen (fun g => { g with progress := 4096, fired := t.gen.fired }) _ (Nat.zero_le _))
    exact h2

theorem startCue_acts {r : CueRecord} (h : Acts true f s t) (hr : startRefusal t r = none) :
    Acts true f s (startCue r t) := by
  obtain ⟨ha, hm, -, -⟩ := startRefusal_none hr
  have h1 := (h.tail (.begin r t rfl ha hm)).tail (.restart _ rfl)
  have h2 := recordEvent_acts (.started r.cue.number)
    (h1.tail (.line (fun l => { l with markLost := false }) _ (.inr le_rfl) le_rfl le_rfl))
  unfold startCue; dsimp only; split
  · exact endInBand_acts h2
  · exact requestStart_acts _ h2

theorem expireDelay_acts (n : Nat) (h : Acts true f s t) : Acts true f s (expireDelay n t) := by
  unfold expireDelay; split
  · exact h
  · split
    · rename_i hr; exact startCue_acts h hr
    · exact recordEvent_acts _ (setTrigger_acts _ h)

theorem drainDelays_acts (h : Acts true f s t) : Acts true f s (drainDelays t) :=
  h.foldl (fun u n hu => by
    unfold drainDelay; split
    · exact expireDelay_acts n hu
    · exact hu) _

/-- Where the BUSY test refuses, a delay that ends starts nothing, and the test refuses after it (R76). -/
theorem drainDelay_busy (n : Nat) (hb : startAllowed t = false) (h : Acts b f s t) :
    Acts b f s (drainDelay t n) ∧ startAllowed (drainDelay t n) = false ∧ (drainDelay t n).seq = t.seq := by
  unfold drainDelay; split
  · unfold expireDelay; split
    · exact ⟨h, hb, rfl⟩
    · rw [startRefusal_of_busy _ hb]
      refine ⟨recordEvent_acts _ (setTrigger_acts _ h), ?_, rfl⟩
      exact hb
  · exact ⟨h, hb, rfl⟩

theorem foldl_drainDelay_busy (l : List Nat) (hb : startAllowed t = false) (h : Acts b f s t) :
    Acts b f s (l.foldl drainDelay t) ∧ (l.foldl drainDelay t).seq = t.seq := by
  induction l generalizing t with
  | nil => exact ⟨h, rfl⟩
  | cons n l ih =>
    obtain ⟨h1, hb1, hs1⟩ := drainDelay_busy n hb h
    obtain ⟨h2, hs2⟩ := ih hb1 h1
    exact ⟨h2, hs2.trans hs1⟩

theorem drainDelays_busy (hb : startAllowed t = false) (h : Acts b f s t) :
    Acts b f s (drainDelays t) ∧ (drainDelays t).seq = t.seq := foldl_drainDelay_busy _ hb h

/-- An axis in motion admits no start (R67). -/
theorem startAllowed_of_moving (h : s.seq.axis = .moving ∨ s.seq.axis = .held ∨ s.seq.axis = .stopping) :
    startAllowed s = false := by
  rcases h with h | h | h <;> simp [startAllowed, h]

/-! ### Enable and ends of stops -/

theorem loseHoming_acts (h : Acts b f s t) : Acts b f s (loseHoming t) := by
  unfold loseHoming; split
  all_goals try rename_i ha
  · split
    · exact onSeq_acts (fun _ => rfl) (abandonHoming_acts h)
    · exact h
  · split
    · exact enterSetting_acts _ (abandonHoming_acts h) (by simp [ha])
    · exact h
  · exact onRun_acts _ (onHoming_acts _ h)
  · exact onRun_acts _ h
  all_goals exact h

theorem loseEnable_acts (h : Acts b f s t) : Acts b f s (loseEnable t) := loseHoming_acts (h.control_same rfl rfl)

theorem endControlledStop_acts (h : Acts b f s t) (ht : t.seq.axis = .stopping) :
    Acts b f s (endControlledStop t) := by
  unfold endControlledStop; split
  · exact enterSetting_acts _ h (by simp [ht])
  · obtain ⟨h1, hs⟩ := drainDelays_busy (startAllowed_of_moving (.inr (.inr (by simpa using ht))))
      (endCue_acts (reasonOf _) h)
    exact enterSetting_acts _ h1 (by rw [hs]; simp [ht])

theorem endFastStop_acts (h : Acts b f s t) (ht : t.seq.axis = .stopping) : Acts b f s (endFastStop t) := by
  unfold endFastStop; split
  · exact enterSetting_acts _ (onGen_acts rfl h) (by simp [ht])
  · refine enterSetting_acts _ ?_ ?_
    · split
      · exact recordHoming_acts h
      · split
        · exact (drainDelays_busy (startAllowed_of_moving (.inr (.inr (by simpa using ht)))) (endCue_acts _ h)).1
        · exact h
    · split
      · simp [ht]
      · split
        · rw [(drainDelays_busy (b := b) (f := f) (startAllowed_of_moving (.inr (.inr (by simpa using ht))))
            (endCue_acts _ h)).2]
          simp [ht]
        · simp [ht]

theorem arrive_acts (h : Acts b f s t) (ht : t.seq.axis = .moving ∨ t.seq.axis = .held ∨ t.seq.axis = .stopping) :
    Acts b f s (arrive t) := by
  obtain ⟨h1, hs⟩ := drainDelays_busy (startAllowed_of_moving (by simpa using ht)) (endCue_acts .arrived h)
  refine enterSetting_acts _ h1 ?_
  rw [hs]
  rcases ht with ht | ht | ht <;> simp [ht]

theorem refuseRecovery_acts (h : Acts b f s t) (ht : t.seq.axis ≠ .tripped) : Acts b f s (refuseRecovery t) := by
  unfold refuseRecovery; split
  · exact controlledEnd_acts _ h
  · split
    · exact controlledEnd_acts _ h
    · refine fastLatch_acts _ (onSup_acts (fun _ => rfl) (fun _ => rfl) ?_)
      have hfold (l : List Condition) : ∀ u, Acts b f s u → u.seq.axis ≠ .tripped →
          Acts b f s (l.foldl (fun t d => latch d t) u) := by
        induction l with
        | nil => exact fun _ hu _ => hu
        | cons d l ih => exact fun u hu ha => ih _ (latch_acts (.inl ha) hu) ha
      exact hfold _ t h ht

end operations

end Sys2Proof.Machine


/-! PROOFS. What a command can do. `Done` has five forms: elementary changes with `finish` after them, elementary changes
that leave nothing to settle, a request to the stores, a reset, the power-on sequence. `exec_done` shows that every command
has one of them. -/

namespace Sys2Proof.Machine

/-! ## The forms of a command -/

/-- What `Settled` reads is as it was. -/
def Steady (s t : State) : Prop :=
  t.line.statusDue = s.line.statusDue ∧ t.seq = s.seq ∧ t.ctl.armed.isEmpty = s.ctl.armed.isEmpty ∧
    t.ctl.ctx.isNone = s.ctl.ctx.isNone ∧ t.store.live = s.store.live

theorem Steady.refl (s : State) : Steady s s := ⟨rfl, rfl, rfl, rfl, rfl⟩

/-- All that a request to the stores leaves alone: all but the table, the stores, the answers and MAINT_KEY. -/
def apart (s : State) :=
  (s.pending, s.held, s.station, s.seq, s.gen, s.meas, s.ctl, s.peers, s.guard, s.sup, s.line.marks, s.line.statusDue,
    s.store.live, s.inp.loopOpen, s.resetNow, s.line.status, s.line.timer)

/-- What a request to the stores does to the table: nothing, or it takes a record that passes its tests, or it removes one
(R56, R58). -/
inductive Tabled (s t : State) : Prop
  | same (same : t.table = s.table)
  | taken (r : CueLoad) (allowed : loadRefusal s r = none)
      (table : t.table = insertRecord (takenRecord (recordOf r)) s.table)
  | dropped (n : Nat) (table : t.table = removeRecord n s.table)

/-- What is known after a request to the stores. -/
structure Requested (s t : State) : Prop where
  same : apart t = apart s
  table : Tabled s t
  queues : QueuesLawful s → QueuesLawful t

/-- What a command alone may do. -/
def freedom : Instr → Freedom
  | .profilePeriod => .period
  | .estopLoopOpen => .loop
  | _ => .strict

/-- The forms of a command. -/
inductive Done (starts : Bool) (free : Freedom) (s : State) : State → Prop
  | finished (u : State) (acts : Acts starts free s u) : Done starts free s (finish u)
  | steady (t : State) (acts : Acts starts free s t) (steady : Steady s t) : Done starts free s t
  | stored (t : State) (requested : Requested s t) : Done starts free s t
  | reset (cause : ResetCause) : Done starts free s (applyReset cause s)
  | poweredOn (cause : ResetCause) (straps : BitVec 6) (held : s.held = some cause) :
      Done starts free s (powerOnRun cause straps s)

/-! ## The operations of commands -/

section commands
variable {b : Bool} {f : Freedom} {s t : State}

theorem Done.unchanged : Done b f s s := .steady s .refl (Steady.refl s)

theorem buildStatus_acts (h : Acts b f s t) : Acts b f s (buildStatus t) := by
  unfold buildStatus; split
  · refine onGen_acts ?_ (h.tail (.line _ t (.inr (le_refl _)) (le_refl _) (le_refl _)))
    rfl
  · exact h

theorem buildAnnounce_acts (c : AnnounceCause) (h : Acts b f s t) : Acts b f s (buildAnnounce c t) := by
  unfold buildAnnounce; split
  · exact h.tail (.line _ t (.inr (le_refl _)) (le_refl _) (le_refl _))
  · exact h

theorem buildStatus_steady (h : Steady s t) : Steady s (buildStatus t) := by
  unfold buildStatus; split
  · exact h
  · exact h

theorem Acts.peers_map (h : Acts b f s t) {g : Peer → Peer} (hg : ∀ p, (g p).station = p.station) :
    Acts b f s (t.onPeers fun ps => ps.map g) :=
  h.tail (.peers _ t (by simp [stations, Function.comp_def, hg]))

@[simp] theorem agePeer_station (S : Setup) (p : Peer) : (agePeer S p).station = p.station := by
  unfold agePeer; split <;> rfl

theorem updatePeer_acts (n : Nat) (c : PeerContents) (h : Acts b f s t) : Acts b f s (t.onPeers (updatePeer n c)) :=
  h.peers_map fun p => by split <;> rfl

theorem unhearClearance_acts (h : Acts b f s t) : Acts b f s (t.onPeers unhearClearance) :=
  h.peers_map fun p => by split <;> rfl

/-! ### Calls -/

theorem findCue_some {l : List CueRecord} {n : Nat} {r : CueRecord} (h : findCue l n = some r) :
    r ∈ l ∧ r.cue.number = n :=
  ⟨List.mem_of_find?_eq_some h, by simpa using List.find?_some h⟩

theorem earlyRefusal_none {cue : Nat} (h : earlyRefusal s cue = none) :
    s.seq.axis ≠ .tripped ∧ (findCue s.table cue).isSome = true ∧ isRunning s cue = false ∧
      s.meas.referenced = true := by
  unfold earlyRefusal at h
  split at h
  · cases h
  split at h
  · cases h
  split at h
  · cases h
  split at h
  · cases h
  rename_i h1 h2 h3 h4
  refine ⟨h1, ?_, by simpa using h3, by simpa using h4⟩
  cases h5 : findCue s.table cue <;> simp_all

theorem lateRefusal_none {r : CueRecord} (h : lateRefusal s r = none) :
    s.ctl.armed.length < 4 ∧ peersFit s.station s.peers r.cue = true := by
  unfold lateRefusal at h
  split at h
  · cases h
  split at h
  · cases h
  rename_i h1 h2
  exact ⟨by omega, by simpa using h2⟩

theorem takeArming_acts {r : CueRecord} (window : Nat) (ht : s.seq.axis ≠ .tripped) (hr : r ∈ s.table)
    (hn : isRunning s r.cue.number = false) (ha : isArmed s r.cue.number = false) (hl : lateRefusal s r = none) :
    Acts b f s (takeArming r window s) := by
  obtain ⟨hroom, hfit⟩ := lateRefusal_none hl
  have h1 : Acts b f s (s.onCtl fun c => { c with armed := c.armed ++ [armedEntry r window] }) :=
    .single (.arm r window s ht hroom ha hn)
  have h2 := h1.tail (.join r _ hr hfit)
  unfold takeArming
  refine recordEvent_acts _ ?_
  split
  · exact enterWaking_acts _ h2 ht
  · exact h2

theorem arming_acts (cue window : Nat) : Acts b f s (arming cue window s) := by
  unfold arming
  split
  · exact recordEvent_acts _ .refl
  · exact recordEvent_acts _ .refl
  · rename_i r he hf
    obtain ⟨ht, -, hn, -⟩ := earlyRefusal_none he
    obtain ⟨hr, rfl⟩ := findCue_some hf
    split
    · exact Acts.armed_map .refl (fun a => by split <;> rfl) fun _ a _ _ => by split <;> rfl
    · split
      · exact recordEvent_acts _ .refl
      · rename_i ha _ hl
        exact takeArming_acts window ht hr hn (by simpa using ha) hl

theorem goCue_acts (r : CueRecord) (hb : b = true ∨ s.ctl.ctx.isSome = true) : Acts b f s (goCue r s) := by
  unfold goCue; split
  · exact recordEvent_acts _ .refl
  · split
    · exact recordEvent_acts _ .refl
    · rename_i hr
      rcases hb with rfl | hb
      · exact drainDelays_acts (startCue_acts .refl hr)
      · have := (startRefusal_none hr).1
        rw [Option.isSome_iff_exists] at hb
        obtain ⟨x, hx⟩ := hb
        simp [startAllowed, hx] at this

theorem startAllowed_of_running (h : s.ctl.ctx.isSome = true) : startAllowed s = false := by
  obtain ⟨x, hx⟩ := Option.isSome_iff_exists.1 h
  simp [startAllowed, hx]

theorem expireDelay_acts_of (n : Nat) (hb : b = true ∨ s.ctl.ctx.isSome = true) : Acts b f s (expireDelay n s) := by
  rcases hb with rfl | hb
  · exact expireDelay_acts n .refl
  · unfold expireDelay; split
    · exact .refl
    · rw [startRefusal_of_busy _ (startAllowed_of_running hb)]
      exact recordEvent_acts _ (setTrigger_acts _ .refl)

theorem takeMark_acts (sender cue mark : Nat) (h : Acts b .strict s t) : Acts b .strict s (takeMark sender cue mark t) :=
  h.armed_map (fun a => by split <;> rfl) nofun

theorem markFrame_acts (sender cue mark : Nat) (hb : b = true ∨ s.ctl.ctx.isSome = true) :
    Acts b .strict s (drainDelays (takeMark sender cue mark s)) := by
  have h1 : Acts b .strict s (takeMark sender cue mark s) := takeMark_acts _ _ _ .refl
  rcases hb with rfl | hb
  · exact drainDelays_acts h1
  · have h2 : (takeMark sender cue mark s).ctl.ctx.isSome = true := hb
    exact (drainDelays_busy (startAllowed_of_running h2) h1).1

theorem replyFree_of {s t : State} (h : replyFree s = true) (hl : t.line.replies = s.line.replies)
    (hw : t.store.waiting = s.store.waiting) : replyFree t = true := by
  simpa [replyFree, hl, hw] using h

theorem clearAct_acts (h : Acts b f s t) : Acts b f s (clearAct t) := by
  unfold clearAct; split
  · exact h
  · dsimp only; split
    · split
      · rename_i he; exact h.tail (.rest t (by simpa using he))
      · have h1 := h.tail (.relatch t)
        split
        · exact seeReady_acts h1
        · exact h1
    · rename_i ha; exact h.tail (.unlatch t ha)

@[simp] theorem dropAbsent_base (s : State) : base (dropAbsent s) = base s := rfl
@[simp] theorem dropAbsent_still (s : State) : still (dropAbsent s) = still s := rfl

@[simp] theorem clearAct_base (s : State) : base (clearAct s) = base s := by
  unfold clearAct; split
  · rfl
  · dsimp only; split
    · split
      · simp
      · split <;> simp
    · rfl

@[simp] theorem clearAct_still (s : State) : still (clearAct s) = still s := by
  unfold clearAct; split
  · rfl
  · dsimp only; split
    · split
      · simp
      · split <;> simp
    · rfl

/-- Equal answers, from what an operation leaves alone. -/
theorem replies_of_still {s t : State} (h : still t = still s) : t.line.replies = s.line.replies :=
  congrArg (fun p => p.2.2.2.1) h

theorem store_of_base {s t : State} (h : base t = base s) : t.store = s.store := ((base_eq_iff _ _).1 h).2.2.2.2.2.2.1

theorem requestTaken_free {h : Hdr} (ht : requestTaken s h = true) : replyFree s = true := by
  simp only [requestTaken, Bool.and_eq_true] at ht
  exact ht.2

theorem clear_acts (h : Hdr) (hr : replyFree s = true) : Acts b f s (answer h .clear (clearResult s) 0 (clearAct s)) :=
  (clearAct_acts .refl).tail (.reply _ _ (replyFree_of hr (replies_of_still (clearAct_still s))
    (by rw [store_of_base (clearAct_base s)])))

theorem acceptHome_acts (h : Hdr) (hr : replyFree s = true) : Acts b f s (acceptHome h s) := by
  have h1 : Acts b f s (answer h .home .done 0 s) := .single (.reply _ s hr)
  exact requestStart_acts _ (h1.control_same (g := fun c => { c with homing := some ⟨false, false, false⟩ }) rfl rfl)

theorem lineResetCues_acts (h : Acts b f s t) : Acts b f s (lineResetCues t) :=
  Acts.control_same (g := fun c => { c with override := 100 })
    (loseEnable_acts (disarmAll_acts _ (controlledEnd_acts _ h))) rfl rfl

theorem passHoldLimit_acts (h : Acts b f s t) : Acts b f s (passHoldLimit t) := by
  unfold passHoldLimit; split
  all_goals try rename_i ha
  · exact controlledEnd_acts _ h
  · exact controlledEnd_acts _ h
  · exact controlledEnd_acts _ h
  · exact refuseRecovery_acts h (by simp [ha])
  · split
    · exact controlledEnd_acts _ h
    · split
      · exact refuseRecovery_acts h (by simp [ha])
      · exact h
  all_goals exact h

theorem waitCounts_untripped (h : waitCounts s = true) : s.seq.axis ≠ .tripped := by
  intro ha; simp [waitCounts, ha] at h

/-! ### Frames of peers and ageing -/

theorem noteUpdate_acts (n : Nat) (c : PeerContents) (h : Acts b f s t) : Acts b f s (noteUpdate n c t) := by
  unfold noteUpdate; split
  · exact h
  · exact groupTest_acts _ (onCtx_acts (fun _ => rfl) h)

theorem takeStatus_acts (n : Nat) (c : PeerContents) (h : Acts b f s t) : Acts b f s (takeStatus n c t) := by
  unfold takeStatus; split
  · exact noteUpdate_acts _ _ (updatePeer_acts _ _ h)
  · exact h

theorem noteLoss_acts (n : Nat) (h : Acts b f s t) : Acts b f s (noteLoss t n) := by
  unfold noteLoss; split
  · exact h
  · split
    · exact h
    · split
      · exact h
      · exact controlledEnd_acts _ h

theorem peerAgeing_acts (l : List Nat) (S : Setup) :
    Acts b f s (l.foldl noteLoss (s.onPeers fun ps => ps.map (agePeer S))) :=
  Acts.foldl (fun _ n hu => noteLoss_acts n hu) _ (Acts.peers_map .refl fun p => agePeer_station S p)

/-! ### The winch -/

theorem input_acts {g : Inputs → Inputs} (hg : (g t.inp).loopOpen = true → t.inp.loopOpen = true) (h : Acts b f s t) :
    Acts b f s (t.onInp g) := h.tail (.input g t (.inr hg))

theorem takeReady_acts (h : Acts b f s t) : Acts b f s (takeReady t) := by
  unfold takeReady; split
  · rename_i ha; exact completeWake_acts h (by simp [ha])
  · exact seeReady_acts h

theorem loseReady_acts (h : Acts b f s t) : Acts b f s (loseReady t) := by
  unfold loseReady; split
  · exact markAbsent_acts _ (evaluate_acts (.inr (by decide)) (.inl rfl) _ h)
  · exact h

theorem evaluateLevel_acts {c : Condition} (hc : c ≠ .encoder) (hl : c.isDrop = true ∨ harmless c = true) (d : Bool)
    (h : Acts b f s t) : Acts b f s (evaluateLevel c d t) := by
  unfold evaluateLevel; split
  · exact evaluate_acts (.inr hc) hl d h
  · exact h

theorem takeReleased_acts (h : Acts b f s t) : Acts b f s (takeReleased t) := by
  unfold takeReleased; split
  · rename_i ha; exact completeRelease_acts h (by simp [ha])
  · exact h

theorem takeSet_acts (h : Acts b f s t) : Acts b f s (takeSet t) := by
  have h1 := markAbsent_acts .brakeSet h
  unfold takeSet; dsimp only; split
  · rename_i ha; exact confirmSet_acts h1 (by simp [ha])
  · exact h1

theorem openLoop_acts (h : Acts b f s t) : Acts b f s (openLoop t) := by
  have h1 := markPresent_acts (c := .estop) (.inr (by decide)) h
  unfold openLoop; dsimp only; split
  · exact h1.tail (.drop .estop _)
  · rename_i ha; exact enterTripped_acts _ (latch_acts (.inl ha) h1)

theorem raiseBrakeSet_acts (h : Acts b f s t) (ht : t.seq.axis ≠ .tripped) : Acts b f s (raiseBrakeSet t) := by
  unfold raiseBrakeSet
  refine enterTripped_acts _ ?_
  split
  · exact latch_acts (.inl (by simpa [markPresent])) (markPresent_acts (.inr (by decide)) h)
  · exact latch_acts (.inl ht) h

theorem judgeSlack_acts (h : Acts b f s t) : Acts b f s (judgeSlack t) := by
  have h1 := markPresent_acts (c := .slack) (.inr (by decide)) h
  unfold judgeSlack; split
  · split
    · dsimp only; split
      · exact controlledEnd_acts _ h1
      · split
        · exact h1
        · exact respond_acts (.inr rfl) h1
    · exact markAbsent_acts _ h
  · exact h

theorem judgeLoad_acts (h : Acts b f s t) : Acts b f s (judgeLoad t) :=
  evaluate_acts (.inr (by decide)) (.inr rfl) _
    (judgeSlack_acts (evaluate_acts (.inr (by decide)) (.inr rfl) _ h))

/-- A conversion keeps the window at the latest four, its mean and the run of invalid ones at most 4 (R131, R132). -/
theorem takeSample_load (S : Setup) (raw : BitVec 12) (h : LoadLawful t) : LoadLawful (t.onMeas (takeSample S raw)) := by
  obtain ⟨hw, hf, hr⟩ := h
  unfold LoadLawful
  simp only [onMeas_meas, takeSample]; split
  · exact ⟨hw, hf, Nat.min_le_right _ _⟩
  · refine ⟨?_, rfl, Nat.zero_le _⟩
    simp only [joinWindow, List.length_append, List.length_singleton]
    split
    · omega
    · rw [List.length_tail]; omega

theorem takeSample_acts (S : Setup) (raw : BitVec 12) (h : Acts b f s t) : Acts b f s (t.onMeas (takeSample S raw)) := by
  refine h.tail (.meas _ t ?_ ?_ ?_ (takeSample_load S raw)) <;> unfold takeSample <;> split <;> simp

/-! ### The period -/

theorem applyReference_acts (h : Acts b f s t) : Acts b f s (applyReference t) := by
  unfold applyReference; split
  · exact h
  · exact h
  · refine onRun_acts _ (onGen_acts ?_ (h.tail (.meas _ t ?_ ?_ ?_ ?_)))
    · rfl
    · rfl
    · rfl
    · intro h; cases h
    · exact id

theorem guardCompute_acts (h : Acts b f s t) : Acts b f s (guardCompute t) := h.tail (.guard _ t)

theorem homingAbort_acts (searching : Bool) (h : Acts b f s t) : Acts b f s (homingAbort searching t) := by
  unfold homingAbort; split
  · exact onRun_acts _ (onHoming_acts _ (h.tail (.guard _ t)))
  · exact h

theorem couple_acts (h : Acts b f s t) : Acts b f s (couple t) := by
  unfold couple; split
  · exact onCtx_acts (fun _ => rfl) h
  · exact h

theorem latchCount_acts (S : Setup) (h : Acts b f s t) : Acts b f s (t.onMeas (latchCount S)) :=
  h.tail (.meas _ t rfl rfl id id)

theorem beforeGenerator_acts (h : Acts b f s t) : Acts b f s (beforeGenerator t) :=
  couple_acts (homingAbort_acts _ (guardCompute_acts (latchCount_acts _ (applyReference_acts h))))

theorem onGen_const (t : State) (g : Generator → Generator) : t.onGen g = t.onGen fun _ => (t.onGen g).gen := rfl

/-- One computation of the generator changes the generator only, and not its progress (R24, R39). -/
theorem generate_gen (t : State) : (generate t).1 = (t.onGen fun _ => (generate t).1.gen) ∧
    (generate t).1.gen.progress = t.gen.progress := by
  unfold generate trackMode holdMode runMode fastMode homingMode
  split
  case h_3 =>
    split
    · dsimp only; exact ⟨onGen_const t _, rfl⟩
    · split <;> dsimp only <;> exact ⟨onGen_const t _, rfl⟩
  case h_4 =>
    split
    · dsimp only; exact ⟨onGen_const t _, rfl⟩
    · split <;> dsimp only <;> exact ⟨onGen_const t _, rfl⟩
  case h_5 => split <;> dsimp only <;> exact ⟨onGen_const t _, rfl⟩
  all_goals dsimp only; exact ⟨onGen_const t _, rfl⟩

theorem generate_acts (h : Acts b f s t) : Acts b f s (generate t).1 := by
  obtain ⟨hg, hp⟩ := generate_gen t
  rw [hg]
  exact onGen_acts hp h

theorem updateProgress_acts (h : Acts b f s t) : Acts b f s (updateProgress t) := by
  unfold updateProgress; split
  · exact h
  · split
    · exact h
    · split
      · exact h
      · exact h.tail (.gen _ t (le_max_left _ _))

theorem dutyOf_range (live : Setup) (ref : Int) : 1 ≤ dutyOf live ref ∧ dutyOf live ref ≤ 4095 := by
  unfold dutyOf clampInt; omega

theorem dutyIn_range (s : State) (mode : GenMode) : 1 ≤ dutyIn s mode ∧ dutyIn s mode ≤ 4095 := by
  unfold dutyIn; split
  · exact ⟨by decide, by decide⟩
  · exact dutyOf_range _ _

theorem runGenerator_acts (h : Acts b f s t) : Acts b f s (runGenerator t).1 :=
  .tail (onGen_acts (by rfl) (fireMarks_acts _ (updateProgress_acts (generate_acts h)))) (.duty _ _ (dutyIn_range _ _))

theorem respondIf_acts {c : Condition} (hc : c.isDrop = true ∨ harmless c = true) (d : Bool) (h : Acts b f s t) :
    Acts b f s (respondIf c d t) := by
  unfold respondIf; split
  · exact respond_acts hc h
  · exact h

theorem judgeFollowing_acts (h : Acts b f s t) : Acts b f s (judgeFollowing t) := by
  unfold judgeFollowing; split
  · exact evaluate_acts (.inr (by decide)) (.inr rfl) _ h
  · exact markAbsent_acts _ h

theorem setPresence_acts {c : Condition} (hc : f = .period ∨ c ≠ .encoder) (d : Bool) (h : Acts b f s t) :
    Acts b f s (setPresence c d t) := by
  unfold setPresence; split
  · exact markPresent_acts hc h
  · exact markAbsent_acts _ h

theorem judgeMotion_acts (h : Acts b .period s t) : Acts b .period s (judgeMotion t) := by
  unfold judgeMotion
  refine respondIf_acts (.inl rfl) _ (judgeFollowing_acts (respondIf_acts (.inl rfl) _ ?_))
  unfold loseReference; split
  · exact .tail (setPresence_acts (.inl rfl) _ (setPresence_acts (.inl rfl) _ h)) (.unreference _ rfl)
  · exact setPresence_acts (.inl rfl) _ (setPresence_acts (.inl rfl) _ h)

theorem actOnRun_acts (v : Nat) (arrived : Bool) (h : Acts b f s t) : Acts b f s (actOnRun v arrived t) := by
  unfold actOnRun; split
  all_goals try rename_i ha
  · split
    · exact arrive_acts h (.inl ha)
    · split
      · exact onSeq_acts (fun _ => rfl) (setAxis_acts (by decide) (by decide) h (by simp [ha]))
      · exact h
  · split
    · exact arrive_acts h (.inr (.inl ha))
    · split
      · exact h
      · exact setAxis_acts (by decide) (by decide) h (by simp [ha])
  · split
    · split
      · exact endControlledStop_acts h ha
      · exact h
    · exact h
  all_goals exact h

theorem actOnHoming_acts (v : Nat) (ended : Bool) (h : Acts b f s t) : Acts b f s (actOnHoming v ended t) := by
  unfold actOnHoming; split
  · rename_i ha
    split
    · have h1 := onRun_acts (fun r => { r with missed := true })
        (h.tail (.meas (fun m => { m with capture := .disarmed }) t rfl rfl id id))
      exact fastLatch_acts _ (latch_acts (c := .homeMiss) (.inr rfl) h1)
    · split
      · exact enterSetting_acts _ (recordHoming_acts h) (by simp [ha])
      · exact h
  · exact h

theorem actOn_acts (r : GenReport) (h : Acts b f s t) : Acts b f s (actOn r t) := by
  unfold actOn; split
  · exact h
  · exact actOnRun_acts _ _ h
  · unfold actOnFast; split
    · rename_i ha
      refine endFastStop_acts h ?_
      simp only [stoppingOf, Bool.and_eq_true, decide_eq_true_eq] at ha
      exact ha.1.1
    · exact h
  · exact actOnHoming_acts _ _ h
  · split
    · rename_i ha; exact beginRelease_acts _ h (by simp [ha])
    · exact h

end commands

end Sys2Proof.Machine


/-! PROOFS. What each instruction can do: the requests to the stores, the frames handed on, and from them `exec_done`, which
gives every command one of the forms of `Done`. -/

namespace Sys2Proof.Machine

section exec
variable {b : Bool} {f : Freedom} {s : State}

/-! ## Requests to the stores -/

section requests
variable {t : State} {h : Hdr}

@[simp] theorem queueReply_apart (r : ReplyBody) (s : State) : apart (queueReply r s) = apart s := rfl

/-- A queued answer takes a free place of the REPLY queue. -/
theorem queueReply_queues (r : ReplyBody) (hf : replyFree s = true) (hq : QueuesLawful s) :
    QueuesLawful (queueReply r s) := by
  obtain ⟨hm, hr, hw⟩ := hq
  simp only [replyFree, decide_eq_true_eq] at hf
  refine ⟨hm, ?_, hw⟩
  simp only [queueReply, onLine_line, onLine_store, List.length_append, List.length_singleton]
  omega

theorem Requested.refl (s : State) : Requested s s := ⟨rfl, .same rfl, id⟩

/-- A SETUP reads MAINT_KEY first. -/
theorem Requested.ofKey (key : Bool) (h : Requested (s.onInp fun p => { p with maintKey := key }) t) :
    Requested s t := by
  refine ⟨h.same, ?_, h.queues⟩
  cases h.table with
  | same h => exact .same h
  | taken r h ht => exact .taken r h ht
  | dropped n h => exact .dropped n h

theorem queueReply_requested (r : ReplyBody) (hf : replyFree s = true) : Requested s (queueReply r s) :=
  ⟨rfl, .same rfl, queueReply_queues r hf⟩

theorem loadCue_requested (r : CueLoad) (hf : replyFree s = true) : Requested s (loadCue h r s) := by
  unfold loadCue; split
  · exact queueReply_requested _ hf
  · exact ⟨rfl, .taken r ‹_› rfl, queueReply_queues (s := s.onTable _) _ hf⟩

theorem dropCue_requested (n : Nat) (hf : replyFree s = true) : Requested s (dropCue h n s) := by
  unfold dropCue; split
  · exact queueReply_requested _ hf
  · exact ⟨rfl, .dropped n rfl, queueReply_queues (s := s.onTable _) _ hf⟩

theorem takeSave_requested (hf : replyFree s = true) : Requested s (takeSave h s) := by
  unfold takeSave; split
  · exact queueReply_requested _ hf
  · exact ⟨rfl, .same rfl, queueReply_queues _ hf⟩

theorem joinWaiting_requested (r : StoreRequest) (hf : replyFree s = true) (hw : s.store.writing = true) :
    Requested s (joinWaiting r s) := by
  refine ⟨rfl, .same rfl, fun ⟨hm, hr, _⟩ => ⟨hm, ?_, fun h => ?_⟩⟩
  · simp only [replyFree, decide_eq_true_eq] at hf
    simp only [joinWaiting, onStore_line, onStore_store, List.length_append, List.length_singleton]
    omega
  · simp [joinWaiting, hw] at h

theorem takeSetup_requested (i : Nat) (v : SetupValue) (hf : replyFree s = true) :
    Requested s (takeSetup h i v s) := by
  unfold takeSetup; split
  · exact queueReply_requested _ hf
  · split
    · exact queueReply_requested _ hf
    · split
      · exact queueReply_requested _ hf
      · refine ⟨rfl, .same rfl, fun hq => ?_⟩
        obtain ⟨hm, hr, -⟩ := queueReply_queues (.reservation .setup h.sender h.seq) hf hq
        exact ⟨hm, hr, fun h => by cases h⟩

theorem takeWaiting_apart (r : StoreRequest) (s : State) :
    apart (takeWaiting r s) = apart s ∧ (takeWaiting r s).table = s.table := by
  cases r with
  | setup h i v =>
    simp only [takeWaiting, takeSetup]; split
    · exact ⟨rfl, rfl⟩
    · split
      · exact ⟨rfl, rfl⟩
      · split <;> exact ⟨rfl, rfl⟩
  | save h => simp only [takeWaiting, takeSave]; split <;> exact ⟨rfl, rfl⟩

theorem drainWaiting_apart (l : List StoreRequest) (s : State) :
    apart (drainWaiting l s) = apart s ∧ (drainWaiting l s).table = s.table := by
  induction l generalizing s with
  | nil => exact ⟨rfl, rfl⟩
  | cons r l ih =>
    obtain ⟨ha, ht⟩ := takeWaiting_apart r s
    simp only [drainWaiting]; split
    · exact ⟨ha, ht⟩
    · exact ⟨(ih _).1.trans ha, (ih _).2.trans ht⟩

@[simp] theorem length_fulfil (k : RequestKind) (d : Nat) (l : List (Queued ReplyBody)) :
    (fulfil k d l).length = l.length := by
  induction l with
  | nil => rfl
  | cons e l ih => unfold fulfil; split <;> [split; skip; skip] <;> simp [ih]

/-- The end of a SETUP write (R169, R159). -/
theorem drainWaiting_requested {u : State} (ha : apart u = apart s) (ht : u.table = s.table)
    (hr : u.line.replies.length = s.line.replies.length) :
    Requested s (drainWaiting s.store.waiting u) := by
  obtain ⟨h1, h2⟩ := drainWaiting_apart s.store.waiting u
  obtain ⟨h3, h4, h5⟩ := drainWaiting_places s.store.waiting u
  refine ⟨h1.trans ha, .same (h2.trans ht), fun ⟨hm, hq, _⟩ => ⟨?_, ?_, h5⟩⟩
  · rw [h4]
    have : u.line.marks = s.line.marks := congrArg (fun p => p.2.2.2.2.2.2.2.2.2.2.1) ha
    rw [this]; exact hm
  · rw [h3, hr]; exact hq

end requests

/-! ## Attempts on the line -/

/-- The MARK and REPLY queues grow no longer, and what is owed stays owed. -/
def Drained (l l' : LinePort) : Prop :=
  l'.marks.length ≤ l.marks.length ∧ l'.replies.length ≤ l.replies.length ∧ l'.statusDue = l.statusDue

theorem Drained.done {g : LinePort → LinePort} (h : Drained s.line (g s.line)) : Done b f s (s.onLine g) :=
  .steady _ (.single (.line g s (.inr h.1) h.2.1 h.2.2.ge)) ⟨h.2.2, rfl, rfl, rfl, rfl⟩

@[simp] theorem length_changeAt {α : Type} (g : α → α) (n : Nat) (l : List α) : (changeAt g n l).length = l.length := by
  induction l generalizing n with
  | nil => cases n <;> rfl
  | cons a l ih => cases n <;> simp [changeAt, ih]

theorem beginAttempt_drained (l : LinePort) : Drained l (beginAttempt l) := by
  unfold beginAttempt; split
  · rename_i m rest hm; simp [Drained, hm]
  · split
    · simp [Drained]
    · split
      · simp [Drained]
      · split <;> simp [Drained]

theorem leaveStore_drained (a : Attempt) (l : LinePort) : Drained l (leaveStore a l) := by
  unfold leaveStore; split <;> simp [Drained]
  exact List.length_eraseIdx_le ..

theorem failAttempt_drained (n : Nat) (a : Attempt) (l : LinePort) : Drained l (failAttempt n a l) := by
  have hl := leaveStore_drained a l
  unfold failAttempt; dsimp only; split
  · unfold dropConsequence; split <;> exact hl
  · unfold countAttempt; split
    · simp [Drained]
    · simp [Drained]
    · simp [Drained]
    · split <;> simp [Drained]

/-! ## Every command -/

/-- A command with a condition: done as its two branches are. -/
theorem Answers.ite {p : State → Prop} {c : Prop} [Decidable c] {x y : Host.Outcome State Fault Refusal}
    (hx : c → Answers x p) (hy : ¬c → Answers y p) : Answers (if c then x else y) p := by
  split
  · exact hx ‹_›
  · exact hy ‹_›

theorem Answers.next {p : State → Prop} {t : State} (h : p t) : Answers (.next t) p := ⟨t, rfl, h⟩

theorem Answers.unchanged : Answers (.next s) (Done b f s) := .next .unchanged

theorem Answers.imp {p q : State → Prop} {o : Host.Outcome State Fault Refusal} (h : Answers o p)
    (hpq : ∀ t, p t → q t) : Answers o q := by
  obtain ⟨t, ho, ht⟩ := h
  exact ⟨t, ho, hpq t ht⟩

/-- A request to the table or the stores (R159). -/
def isStoreRequest : Instr → Bool
  | .cueload _ _ | .cuedrop _ _ | .cueask _ _ _ | .save _ | .setup _ _ _ _ => true
  | _ => false

theorem handOn_requested (i : Instr) (hi : isStoreRequest i = true) (s : State) : Answers (handOn i s) (Requested s) := by
  have hno : Answers (.next s) (Requested s) := .next (.refl s)
  cases i
  case cueload h req => exact .ite (fun ht => .next (loadCue_requested _ (requestTaken_free ht))) fun _ => hno
  case cuedrop h cue => exact .ite (fun ht => .next (dropCue_requested _ (requestTaken_free ht))) fun _ => hno
  case cueask h cue form => exact .ite (fun ht => .next (queueReply_requested _ (requestTaken_free ht))) fun _ => hno
  case save h =>
    refine .ite (fun ht => .next ?_) fun _ => hno
    split
    · exact joinWaiting_requested _ (requestTaken_free ht) ‹_›
    · exact takeSave_requested (requestTaken_free ht)
  case setup h i v key =>
    refine .ite (fun _ => ?_) fun _ => hno
    exact .ite (fun _ => .next ⟨rfl, .same rfl, fun hq => hq⟩) fun hf =>
      .ite (fun hw => .next (.ofKey key (joinWaiting_requested _ (by simpa using hf) hw))) fun _ =>
        .next (.ofKey key (takeSetup_requested _ _ (by simpa using hf)))
  all_goals cases hi

theorem setupWriteComplete_requested (s : State) : Answers (exec .setupWriteComplete s) (Requested s) :=
  .ite (fun _ => .next (drainWaiting_requested rfl rfl (length_fulfil _ _ _))) fun _ => .next (.refl s)

/-- The forms of a frame's command. -/
theorem handOn_done (i : Instr) (s : State) (hb : b = true ∨ s.ctl.ctx.isSome = true) :
    Answers (handOn i s) (Done b .strict s) := by
  cases i
  case statusFrame h p =>
    refine .ite (fun _ => ?_) fun _ => .unchanged
    split
    · exact .unchanged
    · exact .next (.finished _ (takeStatus_acts _ _ .refl))
  case markFrame h cue mark =>
    exact .ite (fun _ => .next (.finished _ (markFrame_acts _ _ _ hb))) fun _ => .unchanged
  case standby h cue set window =>
    exact .ite (fun _ => .next (.finished _ (arming_acts _ _))) fun _ => .unchanged
  case go h cue =>
    refine .ite (fun _ => ?_) fun _ => .unchanged
    split
    · exact .unchanged
    · exact .next (.finished _ (goCue_acts _ hb))
  case cancel h cue set =>
    exact .ite (fun _ => .next (.finished _ (disarm_acts _ _ .refl))) fun _ => .unchanged
  case stop h set =>
    exact .ite (fun _ => .next (.finished _ (controlledEnd_acts _ .refl))) fun _ => .unchanged
  case enable h set override count =>
    refine .ite (fun _ => .next (.steady _ ?_ ⟨rfl, rfl, rfl, rfl, rfl⟩)) fun _ => .unchanged
    exact Acts.control_same .refl rfl rfl
  case clear h set =>
    refine .ite (fun ht => .next (.finished _ (clear_acts h (requestTaken_free ht)))) fun _ => ?_
    exact .ite (fun _ => .next (.finished _ (clearAct_acts .refl))) fun _ => .unchanged
  case home h =>
    refine .ite (fun ht => ?_) fun _ => .unchanged
    split
    · exact .next (.stored _ (queueReply_requested _ (requestTaken_free ht)))
    · exact .next (.finished _ (acceptHome_acts h (requestTaken_free ht)))
  case cueload h req => exact (handOn_requested _ rfl s).imp fun _ => .stored _
  case cuedrop h cue => exact (handOn_requested _ rfl s).imp fun _ => .stored _
  case cueask h cue form => exact (handOn_requested _ rfl s).imp fun _ => .stored _
  case save h => exact (handOn_requested _ rfl s).imp fun _ => .stored _
  case setup h i v key => exact (handOn_requested _ rfl s).imp fun _ => .stored _
  case linereset h set =>
    refine .ite (fun _ => .next (.finished _ ?_)) fun _ => .unchanged
    exact noteChange_acts (buildAnnounce_acts _ (unhearClearance_acts (lineResetCues_acts .refl)))
  all_goals exact .unchanged

theorem pinStep_loopOpen (step : QuadStep) (p : Inputs) : (pinStep step p).loopOpen = p.loopOpen := by
  cases step with
  | aLeads => simp only [pinStep]; split <;> rfl
  | bLeads => simp only [pinStep]; split <;> rfl
  | both => rfl

/-- Every command, in every state, is done in one of the five forms; a cue starts only where none runs. -/
theorem exec_done (c : Instr) (s : State) (hb : b = true ∨ s.ctl.ctx.isSome = true) :
    Answers (exec c s) (Done b (freedom c) s) := by
  cases c
  case powerOn => exact .next (.reset _)
  case supplyDip => exact .next (.reset _)
  case resetPin => exact .next (.reset _)
  case powerOnSequence straps =>
    simp only [exec, execPowerOnSequence]; split
    · exact .unchanged
    · exact .next (.poweredOn _ _ ‹_›)
  case saveComplete =>
    simp only [exec, execSaveComplete]; split
    · exact .unchanged
    · exact .next (.stored _ ⟨rfl, .same rfl, fun ⟨hm, hr, hw⟩ => ⟨hm, by simpa using hr, hw⟩⟩)
  case setupWriteComplete =>
    exact (setupWriteComplete_requested s).imp fun _ => .stored _
  case frameDiscarded raw =>
    simp only [exec, execFrameDiscarded]; split
    · exact .unchanged
    · exact handOn_done _ s hb
  case estopLoopOpen =>
    have hi : Acts b .loop s (s.onInp fun p => { p with loopOpen := true }) := .single (.input _ s (.inl rfl))
    exact .ite (fun _ => .next (.finished _ (openLoop_acts hi))) fun _ =>
      .next (.steady _ hi ⟨rfl, rfl, rfl, rfl, rfl⟩)
  case estopLoopClosed =>
    exact .next (.steady _ (markAbsent_acts _ (input_acts (fun h => by cases h) .refl)) ⟨rfl, rfl, rfl, rfl, rfl⟩)
  case driveReadyAsserted => exact .next (.finished _ (takeReady_acts (input_acts id .refl)))
  case driveReadyLost => exact .next (.finished _ (loseReady_acts (input_acts id .refl)))
  case driveFaultAsserted =>
    exact .next (.finished _ (evaluateLevel_acts (by decide) (.inl rfl) _ (input_acts id .refl)))
  case driveFaultDeasserted =>
    exact .next (.finished _ (evaluateLevel_acts (by decide) (.inl rfl) _ (input_acts id .refl)))
  case ultimateOpen sw =>
    exact .next (.finished _ (evaluateLevel_acts (by decide) (.inl rfl) _ (input_acts (by cases sw <;> exact id) .refl)))
  case ultimateClosed =>
    exact .next (.finished _ (evaluateLevel_acts (by decide) (.inl rfl) _ (input_acts id .refl)))
  case brakeFbReleased => exact .next (.finished _ (takeReleased_acts (input_acts id .refl)))
  case brakeFbSet => exact .next (.finished _ (takeSet_acts (input_acts id .refl)))
  case homeSwEdge active =>
    have hi : Acts b .strict s (s.onInp fun p => { p with homeSw := active }) := input_acts id .refl
    refine .ite (fun _ => .next (.steady _ (hi.tail (.meas _ _ rfl rfl id id)) ⟨rfl, rfl, rfl, rfl, rfl⟩)) fun _ =>
      .next (.steady _ hi ⟨rfl, rfl, rfl, rfl, rfl⟩)
  case encoderStep step =>
    have hi : Acts b .strict s (s.onInp (pinStep step)) :=
      input_acts (by rw [pinStep_loopOpen]; exact id) .refl
    refine .ite (fun _ => .next (.steady _ hi ⟨rfl, rfl, rfl, rfl, rfl⟩)) fun _ =>
      .next (.steady _ (hi.tail (.meas _ _ rfl rfl id id)) ⟨rfl, rfl, rfl, rfl, rfl⟩)
  case profilePeriod =>
    refine .ite (fun _ => .unchanged) fun _ => .next (.finished _ (actOn_acts _ ?_))
    split
    · exact judgeMotion_acts (runGenerator_acts (beforeGenerator_acts .refl))
    · exact runGenerator_acts .refl
  case pwmBoundary => exact .next (.steady _ (.single (.boundary s)) ⟨rfl, rfl, rfl, rfl, rfl⟩)
  case loadConversionComplete raw =>
    exact .ite (fun _ => .next (.finished _ (judgeLoad_acts (takeSample_acts _ _ .refl)))) fun _ => .unchanged
  case peerAgeing => exact .ite (fun _ => .unchanged) fun _ => .next (.finished _ (peerAgeing_acts _ _))
  case wakeTimeout => exact .ite (fun _ => .next (.finished _ (dropDemand_latch_acts _ .refl))) fun _ => .unchanged
  case brakeReleaseTimeout =>
    refine .ite (fun h => .next (.finished _ (enterTripped_acts _ (latch_acts (.inl ?_) .refl)))) fun _ => .unchanged
    simp [h.1]
  case brakeSetTimeout =>
    exact .ite (fun h => .next (.finished _ (raiseBrakeSet_acts .refl (by simp [h.1])))) fun _ => .unchanged
  case holdToBrakeExpiry =>
    exact .ite (fun h => .next (.finished _ (enterSetting_acts _ .refl (by simp [h.1])))) fun _ => .unchanged
  case restTimerExpiry =>
    exact .ite (fun h => .next (.finished _ (setAxis_acts (by decide) (by decide) .refl (by simp [h.1])))) fun _ =>
      .unchanged
  case lapseTimerExpiry => exact .ite (fun _ => .next (.finished _ (loseEnable_acts .refl))) fun _ => .unchanged
  case windowExpiry cue => exact .ite (fun _ => .next (.finished _ (disarm_acts _ _ .refl))) fun _ => .unchanged
  case followDelayExpiry cue =>
    exact .ite (fun _ => .next (.finished _ (expireDelay_acts_of _ hb))) fun _ => .unchanged
  case holdLimitExceeded => exact .ite (fun _ => .next (.finished _ (passHoldLimit_acts .refl))) fun _ => .unchanged
  case recoveryWaitExceeded =>
    exact .ite (fun h => .next (.finished _ (refuseRecovery_acts .refl (waitCounts_untripped h)))) fun _ => .unchanged
  case dwellExpiry =>
    refine .ite (fun h => .next (.finished _ (beginRelease_acts _ (onSup_acts (fun _ => rfl) (fun _ => rfl) .refl) ?_)))
      fun _ => .unchanged
    simp only [dwellRuns, Bool.and_eq_true, decide_eq_true_eq] at h
    simp [h.1]
  case statusTimerExpiry =>
    exact .ite (fun _ => .next (.steady _ (buildStatus_acts .refl) (buildStatus_steady (Steady.refl s)))) fun _ =>
      .unchanged
  case transmitAttempt =>
    exact .ite (fun _ => .next (beginAttempt_drained s.line).done) fun _ => .unchanged
  case frameSent =>
    simp only [exec, execFrameSent]; split
    · exact .unchanged
    · exact .next (Drained.done (leaveStore_drained _ s.line))
  case attemptFailed =>
    simp only [exec, execAttemptFailed]; split
    · exact .unchanged
    · exact .next (failAttempt_drained _ _ s.line).done
  all_goals rw [← handOn_exec _ _ rfl]; exact handOn_done _ s hb

end exec

end Sys2Proof.Machine


/-! PROOFS. The invariants: what elementary changes keep, what ends a command, a millisecond, and from them the laws of
the device that every step keeps. -/

namespace Sys2Proof.Machine

/-! ## From elementary changes to commands and steps -/

/-- What no elementary change touches: all of the base but the inputs. -/
def quiet (s : State) := (s.pending, s.held, s.station, s.freeCount, s.table, s.store, s.resetNow)

theorem quiet_of_base {s t : State} (h : base t = base s) : quiet t = quiet s := by
  obtain ⟨h1, h2, h3, h4, -, h6, h7, h8⟩ := (base_eq_iff _ _).1 h
  simp [quiet, *]

theorem Act.quiet {b : Bool} {f : Freedom} {s t : State} (h : Act b f s t) : quiet t = quiet s := by
  cases h
  case trip o => exact quiet_of_base (enterTripped_base o s)
  case axis a _ _ _ => exact quiet_of_base (setAxis_base a s)
  case drive => exact quiet_of_base (followDrive_base s)
  case drop c => exact quiet_of_base (followDrive_base _)
  case rest _ => exact quiet_of_base ((setAxis_base .rest _).trans (dropAbsent_base s))
  case relatch => exact quiet_of_base ((followDrive_base _).trans (dropAbsent_base s))
  all_goals rfl

theorem Acts.quiet {b : Bool} {f : Freedom} {s t : State} (h : Acts b f s t) : quiet t = quiet s :=
  h.keeps (P := fun u => Machine.quiet u = Machine.quiet s) (fun _ _ act hu => act.quiet.trans hu) rfl

/-- What ends a command is made of elementary changes and of the count of STATUS owed going to 0. -/
theorem finish_acts {b : Bool} {f : Freedom} (s : State) :
    ∃ u, Acts b f s u ∧ finish s = u.onLine fun l => { l with statusDue := 0 } := by
  refine ⟨_, ?_, rfl⟩
  have h (n : Nat) : ∀ u, Acts b f s u → Acts b f s (buildStatus^[n] u) := by
    induction n with
    | zero => exact fun _ hu => hu
    | succ n ih => exact fun u hu => by rw [Function.iterate_succ_apply]; exact ih _ (buildStatus_acts hu)
  exact h _ _ (onSeq_acts (fun _ => rfl) .refl)

theorem watchLevels_acts {b : Bool} {f : Freedom} {s t : State} (h : Acts b f s t) : Acts b f s (watchLevels t) := by
  unfold watchLevels; split
  · exact evaluate_acts (.inr (by decide)) (.inl rfl) _ (evaluate_acts (.inr (by decide)) (.inl rfl) _ h)
  · exact h

section keeps
variable {b : Bool} {f : Freedom} {P : State → Prop} {s t : State}

theorem finish_keeps (hact : ∀ s t, Act b f s t → P s → P t)
    (hdue : ∀ s, P s → P (s.onLine fun l => { l with statusDue := 0 })) (hs : P s) : P (finish s) := by
  obtain ⟨u, hu, he⟩ := finish_acts (b := b) (f := f) s
  rw [he]
  exact hdue _ (hu.keeps hact hs)

/-- An invariant of the elementary changes is kept by a command where the store requests, the resets and the state entry
keep it. -/
theorem Done.keeps (hact : ∀ s t, Act b f s t → P s → P t)
    (hdue : ∀ s, P s → P (s.onLine fun l => { l with statusDue := 0 })) (hstored : Requested s t → P s → P t)
    (hreset : ∀ cause, P (applyReset cause s)) (hpower : ∀ own, s.held.isSome = true → P s → P (stateEntry own s))
    (h : Done b f s t) (hs : P s) : P t := by
  cases h
  case finished u acts => exact finish_keeps hact hdue (acts.keeps hact hs)
  case steady acts _ => exact acts.keeps hact hs
  case stored requested => exact hstored requested hs
  case reset cause => exact hreset cause
  case poweredOn cause straps held =>
    have h1 := hpower straps.toNat (by simp [held]) hs
    have h2 : Acts b f (stateEntry straps.toNat s) (watchLevels (stateEntry straps.toNat s)) := watchLevels_acts .refl
    have h3 := finish_keeps hact hdue (h2.keeps hact h1)
    exact (buildAnnounce_acts (.reset cause) (.refl (r := Act b f))).keeps hact h3

end keeps

theorem tickMs_acts {b : Bool} (s : State) : Acts b .strict s (tickMs s) := by
  have h1 : Acts b .strict s (s.onSeq tickSeq) := onSeq_acts (fun _ => rfl) .refl
  have h2 := h1.tail (.control (tickCtl s.seq.axis) _
    (by simp [tickCtl, armedNumbers, tickArmed, Function.comp_def])
    (fun y hy => by
      obtain ⟨x, hx, rfl⟩ := Option.map_eq_some_iff.1 hy
      exact ⟨x, hx, by unfold tickContext; split <;> rfl⟩)
    nofun)
  have h3 := onSup_acts (g := fun p => { p with recovery := p.recovery.map (tickRecovery (waitCounts s)) })
    (fun _ => rfl) (fun _ => rfl) h2
  exact h3.tail (.line (fun l => { l with timer := countDown l.timer }) _ (.inr (le_refl _)) (le_refl _) (le_refl _))

/-- A step is a command on the state with some queue, or a millisecond. -/
theorem step_from {s t : State} (h : step s = .next t) :
    (∃ c l, exec c { s with pending := l } = .next t) ∨ t = passMs s := by
  unfold step at h
  split at h
  · unfold idle at h
    split at h
    · rename_i i _; exact .inl ⟨i, s.pending, h⟩
    · cases h; exact .inr rfl
  · exact .inl ⟨_, _, h⟩

theorem passMs_keeps {b : Bool} {P : State → Prop} {s : State} (hact : ∀ s t, Act b .strict s t → P s → P t)
    (hnow : P s → P { s with resetNow := false }) (hs : P s) : P (passMs s) := by
  unfold passMs; split
  · exact hnow hs
  · exact (tickMs_acts s).keeps hact hs

theorem exec_done_next {b : Bool} {c : Instr} {s t : State} (hb : b = true ∨ s.ctl.ctx.isSome = true)
    (h : exec c s = .next t) : Done b (freedom c) s t := by
  obtain ⟨u, hu, hd⟩ := exec_done c s hb
  rw [h] at hu; cases hu
  exact hd

/-! ## The queue -/

@[simp] theorem watchLevels_base (s : State) : base (watchLevels s) = base s := by
  unfold watchLevels; split <;> simp

theorem Done.pending {b : Bool} {f : Freedom} {s t : State} (h : Done b f s t) : t.pending = s.pending :=
  h.keeps (P := fun u => u.pending = s.pending) (fun _ _ act hu => (congrArg Prod.fst act.quiet).trans hu)
    (fun _ hu => hu) (fun req _ => congrArg Prod.fst req.same) (fun _ => rfl) (fun _ _ _ => rfl) rfl

/-- Settles O2: each form of a command leaves the queue. -/
theorem commandsKeepQueue : Obligations.CommandsKeepQueue := by
  intro c s
  obtain ⟨t, ht, hd⟩ := exec_done (b := true) c s (.inl rfl)
  exact ⟨t, ht, hd.pending⟩

/-- Settles O1. -/
theorem stepRunsFrontCommand : Obligations.StepRunsFrontCommand := by
  intro s c rest h
  simp [step, h]

/-! ## The peer table -/

theorem mem_stations_insertPeer (e : Peer) (ps : List Peer) (n : Nat) :
    n ∈ stations (insertPeer e ps) ↔ n = e.station ∨ n ∈ stations ps := by
  induction ps with
  | nil => simp [insertPeer, stations]
  | cons p ps ih =>
    unfold insertPeer; split
    · simp [stations]
    · split
      · rename_i h; simp only [stations, List.map_cons, List.mem_cons, h]; tauto
      · simp only [stations, List.map_cons, List.mem_cons] at ih ⊢; rw [ih]; tauto

theorem stations_insertPeer_sorted (e : Peer) {ps : List Peer} (h : (stations ps).Pairwise (· < ·)) :
    (stations (insertPeer e ps)).Pairwise (· < ·) := by
  induction ps with
  | nil => simp [insertPeer, stations]
  | cons p ps ih =>
    have h' : (∀ n ∈ stations ps, p.station < n) ∧ (stations ps).Pairwise (· < ·) := List.pairwise_cons.1 h
    unfold insertPeer; split
    · rename_i hlt
      refine List.pairwise_cons.2 ⟨fun n hn => ?_, h⟩
      rcases List.mem_cons.1 hn with rfl | hn
      · exact hlt
      · exact hlt.trans (h'.1 n hn)
    · split
      · exact h
      · rename_i h1 h2
        refine List.pairwise_cons.2 ⟨fun n hn => ?_, ih h'.2⟩
        rcases (mem_stations_insertPeer e ps n).1 hn with rfl | hn
        · exact lt_of_le_of_ne (not_lt.1 h1) (Ne.symm h2)
        · exact h'.1 n hn

@[simp] theorem stations_addInterest (cue : Nat) (g fl : Bool) (ps : List Peer) (n : Nat) :
    stations (addInterest cue g fl ps n) = stations (insertPeer (Peer.new n false) ps) := by
  simp only [stations, addInterest, List.map_map]
  refine List.map_congr_left fun p _ => ?_
  simp only [Function.comp]; split <;> rfl

section interests
variable (cue : Nat) (g fl : Bool)

theorem stations_foldl_addInterest_sorted (l : List Nat) {ps : List Peer} (h : (stations ps).Pairwise (· < ·)) :
    (stations (l.foldl (addInterest cue g fl) ps)).Pairwise (· < ·) := by
  induction l generalizing ps with
  | nil => exact h
  | cons n l ih => exact ih (by rw [stations_addInterest]; exact stations_insertPeer_sorted _ h)

theorem mem_stations_foldl_addInterest (l : List Nat) (ps : List Peer) (k : Nat) :
    k ∈ stations (l.foldl (addInterest cue g fl) ps) ↔ k ∈ l ∨ k ∈ stations ps := by
  induction l generalizing ps with
  | nil => simp
  | cons n l ih =>
    rw [List.foldl_cons, ih, stations_addInterest, mem_stations_insertPeer]
    simp only [Peer.new, List.mem_cons]; tauto

end interests

/-- The stations of a table after an arming: those before it, the other members and the trigger station (R86). -/
theorem mem_stations_joinPeers (own : Nat) (c : CueDef) (ps : List Peer) (k : Nat) :
    k ∈ stations (joinPeers own c ps) ↔ k ∈ otherMembers own c ++ triggerStations c ∨ k ∈ stations ps := by
  simp only [joinPeers, mem_stations_foldl_addInterest, List.mem_append]; tauto

theorem stations_joinPeers_sorted (own : Nat) (c : CueDef) {ps : List Peer} (h : (stations ps).Pairwise (· < ·)) :
    (stations (joinPeers own c ps)).Pairwise (· < ·) :=
  stations_foldl_addInterest_sorted _ _ _ _ (stations_foldl_addInterest_sorted _ _ _ _ h)

theorem hasPeer_iff (ps : List Peer) (n : Nat) : hasPeer ps n = true ↔ n ∈ stations ps := by
  simp [hasPeer, stations]

/-- The room that `peersFit` tests is the room an arming takes (R81, R86). -/
theorem length_joinPeers_le (own : Nat) (c : CueDef) {ps : List Peer} (h : (stations ps).Pairwise (· < ·)) :
    (joinPeers own c ps).length ≤ ps.length + (newStations own ps c).length := by
  have hnd : (stations (joinPeers own c ps)).Nodup := (stations_joinPeers_sorted own c h).imp (fun h => Nat.ne_of_lt h)
  have hsub : stations (joinPeers own c ps) ⊆ stations ps ++ newStations own ps c := by
    intro k hk
    rw [List.mem_append]
    by_cases hp : k ∈ stations ps
    · exact .inl hp
    · refine .inr ?_
      have hm := ((mem_stations_joinPeers own c ps k).1 hk).resolve_right hp
      have hn : hasPeer ps k = false := by rw [← Bool.not_eq_true, hasPeer_iff]; exact hp
      simp only [newStations, List.mem_filter, List.mem_dedup, hn]
      exact ⟨hm, rfl⟩
  have := (List.subperm_of_subset hnd hsub).length_le
  simpa [stations] using this

theorem mem_otherMembers_ne {own : Nat} {c : CueDef} {n : Nat} (h : n ∈ otherMembers own c) : n ≠ own := by
  unfold otherMembers at h; split at h
  · cases h
  · simpa using (List.mem_filter.1 h).2

theorem peersLawful_iff (s : State) : PeersLawful s ↔
    (stations s.peers).length ≤ peerCapacity ∧ (stations s.peers).Pairwise (· < ·) ∧
      ∀ n ∈ stations s.peers, n ≠ s.station := by
  simp [PeersLawful, stations]

/-- Law 4 reads the stations of the table, the own station and the records. -/
theorem peersKept_of_sublist {s t : State} (hp : (stations t.peers).Sublist (stations s.peers))
    (hst : t.station = s.station) (ht : t.table = s.table) (h : PeersKept s) : PeersKept t := by
  obtain ⟨h1, h2⟩ := h
  obtain ⟨ha, hb, hc⟩ := (peersLawful_iff s).1 h1
  refine ⟨(peersLawful_iff t).2 ⟨hp.length_le.trans ha, hb.sublist hp, fun n hn => ?_⟩, ?_⟩
  · rw [hst]; exact hc n (hp.subset hn)
  · rw [hst, ht]; exact h2

theorem peersKept_join {s : State} {r : CueRecord} (hr : r ∈ s.table) (hf : peersFit s.station s.peers r.cue = true)
    (h : PeersKept s) : PeersKept (s.onPeers (joinPeers s.station r.cue)) := by
  obtain ⟨h1, h2⟩ := h
  obtain ⟨ha, hb, hc⟩ := (peersLawful_iff s).1 h1
  refine ⟨(peersLawful_iff _).2 ⟨?_, stations_joinPeers_sorted _ _ hb, fun n hn => ?_⟩, h2⟩
  · have := length_joinPeers_le s.station r.cue hb
    simp only [peersFit, decide_eq_true_eq] at hf
    simp only [stations, onPeers_peers, List.length_map]; omega
  · rcases (mem_stations_joinPeers _ _ _ n).1 hn with hm | hm
    · rcases List.mem_append.1 hm with hm | hm
      · exact mem_otherMembers_ne hm
      · unfold triggerStations at hm; split at hm
        · cases hm
        · rename_i fp hfp
          rw [List.mem_singleton.1 hm]
          exact h2 r hr fp hfp
    · exact hc n hm

@[simp] theorem tripCue_stations (o : CueOutcome) (s : State) :
    (stations (tripCue o s).peers).Sublist (stations s.peers) := by
  unfold tripCue; split
  · exact List.Sublist.refl _
  · exact releasePeers_stations _ _

theorem foldl_disarm_stations (r : DisarmReason) (l : List Nat) (s : State) :
    (stations (l.foldl (disarm r) s).peers).Sublist (stations s.peers) := by
  induction l generalizing s with
  | nil => exact List.Sublist.refl _
  | cons n l ih => exact (ih _).trans (releasePeers_stations n _)

theorem enterTripped_stations (o : CueOutcome) (s : State) :
    (stations (enterTripped o s).peers).Sublist (stations s.peers) := by
  have h1 := foldl_disarm_stations .tripped ((tripCue o (setAxis .tripped s)).ctl.armed.map (·.cue))
    (tripCue o (setAxis .tripped s))
  have h2 := tripCue_stations o (setAxis .tripped s)
  simp only [enterTripped, tripHoming_peers]
  exact h1.trans (by simpa using h2)

theorem Act.keeps_peers {b : Bool} {f : Freedom} {s t : State} (h : Act b f s t) (hs : PeersKept s) : PeersKept t := by
  have hq := h.quiet
  have hst : t.station = s.station := congrArg (fun p => p.2.2.1) hq
  have ht : t.table = s.table := congrArg (fun p => p.2.2.2.2.1) hq
  have hsame (hp : t.peers = s.peers) : PeersKept t :=
    peersKept_of_sublist (by rw [hp]) hst ht hs
  cases h
  case trip o => exact peersKept_of_sublist (enterTripped_stations o s) hst ht hs
  case peers g fewer => exact peersKept_of_sublist fewer hst ht hs
  case join r known fit => exact peersKept_join known fit hs
  case axis a _ _ _ => exact hsame (setAxis_peers a s)
  case drive => exact hsame (followDrive_peers s)
  case drop c => exact hsame (followDrive_peers _)
  case rest _ => exact hsame (setAxis_peers .rest _)
  case relatch => exact hsame (followDrive_peers _)
  all_goals exact hsame rfl

/-! ### Power on -/

theorem mem_insertRecord {r q : CueRecord} {t : List CueRecord} (h : q ∈ insertRecord r t) : q = r ∨ q ∈ t := by
  induction t with
  | nil => simpa [insertRecord] using h
  | cons p t ih =>
    simp only [insertRecord] at h; split at h
    · simpa using h
    · split at h
      · simp only [List.mem_cons] at h ⊢; tauto
      · simp only [List.mem_cons] at h ⊢
        rcases h with h | h
        · tauto
        · have := ih h; tauto

theorem mem_foldl_insertRecord {l : List CueRecord} {q : CueRecord} {t : List CueRecord}
    (h : q ∈ l.foldl (fun t r => insertRecord r t) t) : q ∈ l ∨ q ∈ t := by
  induction l generalizing t with
  | nil => exact .inr h
  | cons r l ih =>
    rcases ih h with h | h
    · exact .inl (List.mem_cons_of_mem _ h)
    · exact (mem_insertRecord h).imp_left fun h => by simp [h]

/-- A loaded record has passed the revalidation (R52). -/
theorem revalidated_of_loaded {live : Setup} {own : Nat} {nv : NvCues} {r : CueRecord}
    (h : r ∈ loadedTable live own nv) : revalidated live own r.cue = true := by
  unfold loadedTable at h; split at h
  · rcases mem_foldl_insertRecord h with h | h
    · obtain ⟨c, hc, rfl⟩ := List.mem_map.1 h
      exact (List.mem_filter.1 hc).2
    · cases h
  · cases h
  · cases h

theorem follow_of_revalidated {live : Setup} {own : Nat} {c : CueDef} (h : revalidated live own c = true) :
    ∀ f ∈ c.follow, f.station ≠ own := by
  intro f hf
  simp only [revalidated, Bool.and_eq_true] at h
  obtain ⟨-, h4⟩ := h
  rw [Option.mem_def.1 hf] at h4
  simpa using h4

theorem stations_clearance_sorted (l : List ClearanceRule) {ps : List Peer} (h : (stations ps).Pairwise (· < ·)) :
    (stations (l.foldl (fun ps r => insertPeer (Peer.new r.peer true) ps) ps)).Pairwise (· < ·) := by
  induction l generalizing ps with
  | nil => exact h
  | cons r l ih => exact ih (stations_insertPeer_sorted _ h)

theorem mem_stations_clearance (l : List ClearanceRule) (ps : List Peer) (n : Nat) :
    n ∈ stations (l.foldl (fun ps r => insertPeer (Peer.new r.peer true) ps) ps) ↔
      (∃ r ∈ l, r.peer = n) ∨ n ∈ stations ps := by
  induction l generalizing ps with
  | nil => simp
  | cons r l ih =>
    rw [List.foldl_cons, ih, mem_stations_insertPeer]
    simp only [Peer.new, List.mem_cons, exists_eq_or_imp, eq_comm (a := n), or_assoc, or_left_comm]

theorem length_insertPeer_le (e : Peer) (ps : List Peer) : (insertPeer e ps).length ≤ ps.length + 1 := by
  induction ps with
  | nil => simp [insertPeer]
  | cons p ps ih =>
    unfold insertPeer; split
    · simp
    · split
      · simp
      · simpa using ih

theorem length_clearance_le (l : List ClearanceRule) (ps : List Peer) :
    (l.foldl (fun ps r => insertPeer (Peer.new r.peer true) ps) ps).length ≤ ps.length + l.length := by
  induction l generalizing ps with
  | nil => simp
  | cons r l ih =>
    have h1 := ih (insertPeer (Peer.new r.peer true) ps)
    have h2 := length_insertPeer_le (Peer.new r.peer true) ps
    simp only [List.foldl_cons, List.length_cons]; omega

theorem length_rulesInUse_le (S : Setup) : (rulesInUse S).length ≤ 8 := by
  simp only [rulesInUse, List.length_take, Vector.length_toList]; omega

/-- A rule of a setup that passes the content check is about another station (R168). -/
theorem ruleGood_peer {own : Nat} {S : Setup} (h : contentGood own S = true) : ∀ r ∈ rulesInUse S, r.peer ≠ own := by
  intro r hr
  simp only [contentGood, Bool.and_eq_true] at h
  have := List.all_eq_true.1 h.2 r hr
  simp only [ruleGood, Bool.and_eq_true, decide_eq_true_eq] at this
  exact this.2

theorem liveSetup_of_good {own : Nat} {nv : NvSetup} (h : setupGood own nv = true) : liveSetup own nv = nv.image := by
  simp [liveSetup, h]

theorem stateEntry_peersKept (own : Nat) (s : State) : PeersKept (stateEntry own s) := by
  refine ⟨(peersLawful_iff _).2 ?_, fun r hr => follow_of_revalidated (revalidated_of_loaded hr)⟩
  simp only [stateEntry]
  split
  · rename_i hg
    simp only [Bool.and_eq_true] at hg
    have hc : contentGood own s.store.nvSetup.image = true := by
      have := hg.1; simp only [setupGood, Bool.and_eq_true] at this; exact this.2
    rw [liveSetup_of_good hg.1]
    refine ⟨?_, stations_clearance_sorted _ List.Pairwise.nil, fun n hn => ?_⟩
    · have h1 := length_clearance_le (rulesInUse s.store.nvSetup.image) []
      have h2 := length_rulesInUse_le s.store.nvSetup.image
      simp only [clearancePeers, stations, List.length_map, peerCapacity] at h1 ⊢
      simp only [List.length_nil] at h1; omega
    · rcases (mem_stations_clearance _ _ n).1 hn with ⟨r, hr, rfl⟩ | hn
      · exact ruleGood_peer hc r hr
      · simp [stations] at hn
  · simp [stations]

/-! ### Requests to the table -/

theorem firstBadField_none {live : Setup} {own : Nat} {r : CueLoad} (h : firstBadField live own r = none) :
    ∀ t ∈ loadTests live own r, t.2 = true := by
  simp only [firstBadField, Option.map_eq_none_iff, List.find?_eq_none] at h
  intro t ht
  simpa using h t ht

/-- A CUELOAD that passes its tests follows another station (R55, identifier 17). -/
theorem follow_of_load {live : Setup} {own : Nat} {r : CueLoad} (h : firstBadField live own r = none) :
    ∀ f ∈ (recordOf r).follow, f.station ≠ own := by
  intro f hf
  obtain ⟨g, hg, rfl⟩ := Option.map_eq_some_iff.1 (Option.mem_def.1 hf)
  have ht := firstBadField_none h (17, given g.station 1 47 && decide (g.station ≠ some own))
    (by simp [loadTests, followTests, hg])
  simp only [Bool.and_eq_true, decide_eq_true_eq] at ht
  obtain ⟨h1, h2⟩ := ht
  cases hs : g.station with
  | none => simp [given, hs] at h1
  | some n => intro he; exact h2 (by rw [hs]; simpa using he)

theorem loadRefusal_none {r : CueLoad} {s : State} (h : loadRefusal s r = none) :
    s.store.saving = none ∧ firstBadField s.store.live s.station r = none ∧ inUse s (recordOf r).number = false ∧
      (s.table.length < 200 ∨ (findCue s.table (recordOf r).number).isSome = true) := by
  unfold loadRefusal at h
  split at h
  · cases h
  split at h
  · cases h
  dsimp only at h
  split at h
  · cases h
  split at h
  · cases h
  rename_i h1 _ h2 h3 h4
  refine ⟨by simpa using h1, h2, by simpa using h3, ?_⟩
  by_cases hl : s.table.length < 200
  · exact .inl hl
  · refine .inr ?_
    by_contra hc
    exact h4 ⟨by omega, by simpa using hc⟩

/-- Whatever a request to the stores does to the table, its records name no own station to follow. -/
theorem Requested.peersKept {s t : State} (h : Requested s t) (hs : PeersKept s) : PeersKept t := by
  have hst : t.station = s.station := congrArg (fun p => p.2.2.1) h.same
  have hp : t.peers = s.peers := congrArg (fun p => p.2.2.2.2.2.2.2.1) h.same
  obtain ⟨h1, h2⟩ := hs
  refine ⟨by simpa only [PeersLawful, hst, hp] using h1, fun q hq => ?_⟩
  rw [hst]
  cases h.table with
  | same ht => exact h2 q (ht ▸ hq)
  | taken r hr ht =>
    rcases mem_insertRecord (ht ▸ hq) with rfl | hq
    · exact follow_of_load (loadRefusal_none hr).2.1
    · exact h2 q hq
  | dropped n ht => exact h2 q (List.mem_filter.1 (ht ▸ hq)).1

theorem Done.peersKept {b : Bool} {f : Freedom} {s t : State} (h : Done b f s t) (hs : PeersKept s) : PeersKept t :=
  h.keeps (P := PeersKept) (fun _ _ act hu => act.keeps_peers hu) (fun _ hu => hu) (fun req hu => req.peersKept hu)
    (fun _ => ⟨⟨Nat.zero_le _, List.Pairwise.nil, fun _ h => nomatch h⟩, fun _ h => nomatch h⟩)
    (fun own _ _ => stateEntry_peersKept own s) hs

/-- Settles O8: the elementary changes keep Law 4, and each of the five forms of a command. -/
theorem stepKeepsPeerTable : Obligations.StepKeepsPeerTable := by
  intro s t _ hs h
  rcases step_from h with ⟨c, l, h⟩ | rfl
  · exact (exec_done_next (b := true) (.inl rfl) h).peersKept hs
  · exact passMs_keeps (b := true) (fun _ _ act hu => act.keeps_peers hu) (fun hu => hu) hs

end Sys2Proof.Machine


/-! PROOFS. The invariants of the armed list, the reference, the duty, the filtered load and the stores. -/

namespace Sys2Proof.Machine

section invariants
variable {b : Bool} {f : Freedom} {s t : State}

/-! ## The armed list -/

/-- Laws 5 and 11 together. -/
def ArmedKept (s : State) : Prop := ArmedLawful s ∧ TripLawful s

/-- Fewer armed cues, the running cue as before or none, and TRIPPED only as before or with nothing armed. -/
theorem ArmedKept.of_fewer (h : ArmedKept s) (fewer : (armedNumbers t).Sublist (armedNumbers s))
    (same : ∀ n, contextNumber t = some n → contextNumber s = some n)
    (tripped : t.seq.axis = .tripped → s.seq.axis = .tripped) : ArmedKept t := by
  obtain ⟨⟨hl, hd, hn⟩, ht⟩ := h
  refine ⟨⟨fewer.length_le.trans hl, hd.sublist fewer, fun n hm hc => hn n (fewer.subset hm) (same n hc)⟩, fun ha => ?_⟩
  rw [armedNumbers, armedNumbers, ht (tripped ha), List.map_nil, List.sublist_nil] at fewer
  exact List.map_eq_nil_iff.1 fewer

theorem ArmedKept.of_none (h : t.ctl.armed = []) : ArmedKept t := by
  simp [ArmedKept, ArmedLawful, TripLawful, armedNumbers, h]

@[simp] theorem contextNumber_setAxis (a : AxisState) (s : State) : contextNumber (setAxis a s) = contextNumber s := by
  simp only [contextNumber, setAxis_ctl, contextIn]; split
  · cases s.ctl.ctx <;> rfl
  · rfl

@[simp] theorem armedNumbers_setAxis (a : AxisState) (s : State) : armedNumbers (setAxis a s) = armedNumbers s := by
  simp [armedNumbers]

theorem contextNumber_of_isRunning {n : Nat} (h : isRunning s n = false) : contextNumber s ≠ some n := by
  unfold isRunning at h; split at h
  · rename_i hx; simp [contextNumber, hx]
  · rename_i x hx; simpa [contextNumber, hx] using h

/-- An arming that finds room, its number neither armed nor running (R62). -/
theorem ArmedKept.arm (h : ArmedKept s) (r : CueRecord) (w : Nat) (untripped : s.seq.axis ≠ .tripped)
    (room : s.ctl.armed.length < 4) (unarmed : isArmed s r.cue.number = false)
    (notRunning : isRunning s r.cue.number = false) :
    ArmedKept (s.onCtl fun c => { c with armed := c.armed ++ [armedEntry r w] }) := by
  obtain ⟨⟨hl, hd, hn⟩, -⟩ := h
  have hm : r.cue.number ∉ armedNumbers s := by
    simpa [isArmed, armedNumbers] using unarmed
  have ha : armedNumbers (s.onCtl fun c => { c with armed := c.armed ++ [armedEntry r w] }) =
      armedNumbers s ++ [r.cue.number] := by simp [armedNumbers, armedEntry]
  refine ⟨⟨?_, ?_, fun n hn' => ?_⟩, fun ht => absurd ht untripped⟩
  · rw [ha, List.length_append]; simp only [armedNumbers, List.length_map, List.length_singleton]; omega
  · rw [ha, List.nodup_append]
    refine ⟨hd, List.nodup_singleton _, fun n h1 m h2 he => ?_⟩
    rw [List.mem_singleton] at h2
    exact hm (h2 ▸ he ▸ h1)
  · rw [ha, List.mem_append, List.mem_singleton] at hn'
    rcases hn' with h | rfl
    · exact hn n h
    · exact contextNumber_of_isRunning notRunning

/-- The start of a cue takes its number from the armed list (R68). -/
theorem ArmedKept.begin (h : ArmedKept s) (r : CueRecord) :
    ArmedKept (s.onCtl fun c =>
      { c with
        armed := c.armed.filter fun a => decide (a.cue ≠ r.cue.number)
        ctx := some (newContext s.station s.peers r) }) := by
  obtain ⟨⟨hl, hd, hn⟩, ht⟩ := h
  have hs : (s.ctl.armed.filter fun a => decide (a.cue ≠ r.cue.number)).Sublist s.ctl.armed := List.filter_sublist
  refine ⟨⟨(hs.map _).length_le.trans hl, hd.sublist (hs.map _), fun n hn' hc => ?_⟩, fun ha => ?_⟩
  · simp only [contextNumber, onCtl_ctl, Option.map_some, Option.some.injEq, newContext] at hc
    simp only [armedNumbers, onCtl_ctl, List.mem_map, List.mem_filter, decide_eq_true_eq] at hn'
    obtain ⟨a, ⟨-, h1⟩, h2⟩ := hn'
    exact h1 (h2.trans hc.symm)
  · simp [show s.ctl.armed = [] from ht ha]

theorem Act.keeps_armed (h : Act b f s t) (hs : ArmedKept s) : ArmedKept t := by
  have hsame (hc : t.ctl = s.ctl) (hx : t.seq.axis = s.seq.axis) : ArmedKept t :=
    hs.of_fewer (by rw [armedNumbers, hc]; exact List.Sublist.refl _) (fun n hn => by rwa [contextNumber, hc] at hn)
      (by rw [hx]; exact id)
  cases h
  case axis a _ _ enters => exact hs.of_fewer (by simp) (fun n hn => by simpa using hn) (fun ht => absurd (by simpa using ht) ‹a ≠ .tripped›)
  case rest _ => 
    refine hs.of_fewer ?_ (fun n hn => ?_) (fun ht => ?_)
    · rw [armedNumbers_setAxis]; exact List.Sublist.refl _
    · rwa [contextNumber_setAxis] at hn
    · simp at ht
  case trip o => exact .of_none (enterTripped_armed o s)
  case control g fewer same _ =>
    refine hs.of_fewer fewer (fun n hn => ?_) id
    obtain ⟨y, hy, rfl⟩ := Option.map_eq_some_iff.1 hn
    obtain ⟨x, hx, hr⟩ := same y hy
    simp [contextNumber, hx, hr]
  case begin r _ _ _ => exact hs.begin r
  case arm r w untripped room unarmed notRunning => exact hs.arm r w untripped room unarmed notRunning
  case drive => exact hsame (followDrive_ctl s) (by simp)
  case drop c => exact hsame (followDrive_ctl _) (by simp)
  case relatch => exact hsame (followDrive_ctl _) (by simp [dropAbsent])
  case seq g same => exact hsame rfl same
  all_goals exact hsame rfl rfl

theorem Done.armedKept (h : Done b f s t) (hh : HeldLawful s) (hs : ArmedKept s) : ArmedKept t :=
  h.keeps (fun _ _ act hu => act.keeps_armed hu) (fun _ hu => hu)
    (fun req hu => by
      have hc : t.ctl = s.ctl := congrArg (fun p => p.2.2.2.2.2.2.1) req.same
      have hq : t.seq = s.seq := congrArg (fun p => p.2.2.2.1) req.same
      exact hu.of_fewer (by rw [armedNumbers, hc]; exact List.Sublist.refl _)
        (fun n hn => by rwa [contextNumber, hc] at hn) (by rw [hq]; exact id))
    (fun _ => .of_none rfl)
    (fun own hd _ => .of_none (by obtain ⟨-, -, -, hc, -⟩ := hh hd; simp [stateEntry, hc, CueControl.reset])) hs

/-- Settles O9: what each elementary change does to the armed list and the running number. -/
theorem stepKeepsArmedList : Obligations.StepKeepsArmedList := by
  intro s t hh ha ht h
  have hs : ArmedKept s := ⟨ha, ht⟩
  rcases step_from h with ⟨c, l, h⟩ | rfl
  · exact (exec_done_next (b := true) (.inl rfl) h).armedKept hh hs
  · exact passMs_keeps (b := true) (fun _ _ act hu => act.keeps_armed hu) (fun hu => hu) hs

/-! ## The filtered load -/

theorem loadLawful_of_still (h : still t = still s) (hs : LoadLawful s) : LoadLawful t := by
  have hm : senses t.meas = senses s.meas := congrArg Prod.fst h
  simp only [senses, Prod.mk.injEq] at hm
  obtain ⟨-, -, -, -, -, -, -, -, hr, hw, hf⟩ := hm
  simpa only [LoadLawful, hr, hw, hf] using hs

theorem Act.keeps_load (h : Act b f s t) (hs : LoadLawful s) : LoadLawful t := by
  cases h
  case axis a _ _ _ => exact loadLawful_of_still (setAxis_still a s) hs
  case rest _ => exact loadLawful_of_still ((setAxis_still .rest _).trans (dropAbsent_still s)) hs
  case trip o => exact loadLawful_of_still (enterTripped_still o s) hs
  case drive => exact loadLawful_of_still (followDrive_still s) hs
  case drop c => exact loadLawful_of_still (followDrive_still _) hs
  case relatch => exact loadLawful_of_still ((followDrive_still _).trans (dropAbsent_still s)) hs
  case meas g _ _ _ load => exact load hs
  all_goals exact hs

theorem Done.loadLawful (h : Done b f s t) (hs : LoadLawful s) : LoadLawful t :=
  h.keeps (fun _ _ act hu => act.keeps_load hu) (fun _ hu => hu)
    (fun req hu => by
      have hm : t.meas = s.meas := congrArg (fun p => p.2.2.2.2.2.1) req.same
      simpa only [LoadLawful, hm] using hu)
    (fun _ => ⟨Nat.zero_le _, rfl, Nat.zero_le _⟩) (fun _ _ hu => hu) hs

/-- Settles O12. -/
theorem stepKeepsFilteredLoad : Obligations.StepKeepsFilteredLoad := by
  intro s t hs h
  rcases step_from h with ⟨c, l, h⟩ | rfl
  · exact (exec_done_next (b := true) (.inl rfl) h).loadLawful hs
  · exact passMs_keeps (b := true) (fun _ _ act hu => act.keeps_load hu) (fun hu => hu) hs

/-! ## The duty with the drive off -/

/-- The drive's duty after a change of axis state: 2048 with the drive off (R2, R135). -/
theorem setAxis_dutyLawful (a : AxisState) (s : State) : DutyLawful (setAxis a s) := by
  intro h
  have hz : dutyAtZero ((s.onSeq (seqIn a)).onSup (presenceIn a)) = true := by
    have he : driveEn ((s.onSeq (seqIn a)).onSup (presenceIn a)) = driveEn (setAxis a s) := by
      simp [driveEn, trippedHolding, isLatched, presenceIn]
    simp [dutyAtZero, he, h]
  obtain ⟨h1, h2⟩ := setAxis_duty a s
  rw [hz] at h1 h2
  exact ⟨h1, h2⟩

theorem followDrive_dutyLawful (s : State) : DutyLawful (followDrive s) := by
  intro h
  rw [followDrive_driveEn] at h
  simp [followDrive_meas, dutyAtZero, h]

theorem driveEn_congr (hi : t.inp.loopOpen = s.inp.loopOpen) (ha : t.seq.axis = s.seq.axis)
    (hl : t.sup.latched = s.sup.latched ∨ t.seq.axis ≠ .tripped) : driveEn t = driveEn s := by
  unfold driveEn
  rw [hi, ha]
  rcases hl with hl | hl
  · simp [trippedHolding, isLatched, hl]
  · rw [ha] at hl
    cases hx : s.seq.axis <;> simp_all

theorem enterTripped_dutyLawful (o : CueOutcome) (s : State) : DutyLawful (enterTripped o s) := by
  intro h
  rw [enterTripped_meas]
  refine setAxis_dutyLawful .tripped s ((driveEn_congr ?_ ?_ (.inl ?_)).symm.trans h)
  · rw [((base_eq_iff _ _).1 (enterTripped_base o s)).2.2.2.2.1, setAxis_inp]
  · simp
  · simp

theorem DutyLawful.of_drive (hs : DutyLawful s) (hd : driveEn t = false → driveEn s = false)
    (hp : t.meas.pendingDuty = s.meas.pendingDuty) (ha : t.meas.activeDuty = s.meas.activeDuty) : DutyLawful t := by
  intro h
  rw [hp, ha]
  exact hs (hd h)

/-- A harmless condition does not bear on the drive of a TRIPPED axis (R2). -/
theorem trippedHolding_latch {c : Condition} (h : harmless c = true) (s : State) :
    trippedHolding (latch c s) = trippedHolding s := by
  simp only [harmless, Bool.and_eq_true, Bool.not_eq_true', decide_eq_true_eq] at h
  obtain ⟨⟨hd, he⟩, hb⟩ := h
  have hm (d : Condition) (hd : d ≠ c) : isLatched (latch c s) d = isLatched s d := by
    simp [isLatched, hd]
  have ha : (latch c s).sup.latched.any Condition.isDrop = s.sup.latched.any Condition.isDrop := by
    rw [Bool.eq_iff_iff]
    simp only [List.any_eq_true, latch_latched, mem_insertCondition]
    constructor
    · rintro ⟨d, rfl | hd', hc⟩
      · simp [hd] at hc
      · exact ⟨d, hd', hc⟩
    · rintro ⟨d, hd', hc⟩; exact ⟨d, .inr hd', hc⟩
  simp only [trippedHolding, hm _ (Ne.symm he), hm _ (Ne.symm hb), ha]

theorem latch_driveEn {c : Condition} (h : s.seq.axis ≠ .tripped ∨ harmless c = true) :
    driveEn (latch c s) = driveEn s := by
  rcases h with h | h
  · exact driveEn_congr rfl rfl (.inr h)
  · simp [driveEn, trippedHolding_latch h, show (latch c s).inp = s.inp from rfl]

theorem strict_ne_loop : Freedom.strict ≠ .loop := nofun

theorem Act.keeps_duty (hf : f ≠ .loop) (h : Act b f s t) (hs : DutyLawful s) : DutyLawful t := by
  have hsame (hi : t.inp.loopOpen = s.inp.loopOpen) (hx : t.seq.axis = s.seq.axis) (hl : t.sup.latched = s.sup.latched)
      (hp : t.meas.pendingDuty = s.meas.pendingDuty) (ha : t.meas.activeDuty = s.meas.activeDuty) : DutyLawful t :=
    hs.of_drive (by rw [driveEn_congr hi hx (.inl hl)]; exact id) hp ha
  cases h
  case axis a _ _ _ => exact setAxis_dutyLawful a s
  case rest _ => exact setAxis_dutyLawful .rest _
  case trip o => exact enterTripped_dutyLawful o s
  case drive => exact followDrive_dutyLawful s
  case drop c => exact followDrive_dutyLawful _
  case relatch => exact followDrive_dutyLawful _
  case seq g same => exact hsame rfl same rfl rfl rfl
  case meas g pending active _ _ => exact hsame rfl rfl rfl pending active
  case duty d range =>
    intro h
    have h' : driveEn s = false := h
    refine ⟨?_, (hs h').2⟩
    simp [writeDuty, h']
  case boundary => exact fun h => ⟨(hs h).1, (hs h).1⟩
  case latch c harm => exact hs.of_drive (by rw [latch_driveEn harm]; exact id) rfl rfl
  case unlatch untripped => exact hs.of_drive (fun h => (driveEn_congr (t := s) (s := dropAbsent s) rfl rfl (.inr untripped)).trans h) rfl rfl
  case sup g latched _ => exact hsame rfl rfl latched rfl rfl
  case input g admitted =>
    refine hs.of_drive (fun h => ?_) rfl rfl
    have hl := admitted.resolve_left hf
    cases ho : (g s.inp).loopOpen with
    | true => simp [driveEn, hl ho]
    | false =>
      cases hi : s.inp.loopOpen with
      | true => simp [driveEn, hi]
      | false => rw [← h]; exact driveEn_congr (t := s) (s := s.onInp g) (hi.trans ho.symm) rfl (.inl rfl)
  all_goals exact hsame rfl rfl rfl rfl rfl

theorem Done.dutyLawful (hf : f ≠ .loop) (h : Done b f s t) (hh : HeldLawful s) (hs : DutyLawful s) : DutyLawful t :=
  h.keeps (fun _ _ act hu => act.keeps_duty hf hu) (fun _ hu => hu)
    (fun req hu => by
      have hm : t.meas = s.meas := congrArg (fun p => p.2.2.2.2.2.1) req.same
      have hq : t.seq = s.seq := congrArg (fun p => p.2.2.2.1) req.same
      have hp : t.sup = s.sup := congrArg (fun p => p.2.2.2.2.2.2.2.2.2.1) req.same
      have hi : t.inp.loopOpen = s.inp.loopOpen := congrArg (fun p => p.2.2.2.2.2.2.2.2.2.2.2.2.2.1) req.same
      exact hu.of_drive (by rw [driveEn_congr hi (by rw [hq]) (.inl (by rw [hp]))]; exact id) (by rw [hm]) (by rw [hm]))
    (fun _ _ => ⟨rfl, rfl⟩)
    (fun own hd _ _ => by obtain ⟨-, -, hm, -⟩ := hh hd; simp [stateEntry, hm, Measure.reset]) hs

/-- The loop opens: the outputs go off on a watched axis, and are off on one that is not (R2, R17). -/
theorem loopOpened_dutyLawful (hh : HeldLawful s) (hs : DutyLawful s) (h : exec .estopLoopOpen s = .next t) :
    DutyLawful t := by
  simp only [exec, execEstopLoopOpen] at h
  split at h
  · cases h
    refine finish_keeps (b := true) (f := .strict) (fun _ _ act hu => act.keeps_duty strict_ne_loop hu) (fun _ hu => hu) ?_
    unfold openLoop; dsimp only; split
    · exact followDrive_dutyLawful _
    · exact enterTripped_dutyLawful _ _
  · rename_i hw
    cases h
    intro _
    by_cases hd : s.held.isSome = true
    · obtain ⟨-, -, hm, -⟩ := hh hd; simp [hm, Measure.reset]
    · have ha : s.seq.axis = .unaddressed := by
        simp only [watched, Bool.and_eq_true, decide_eq_true_eq, not_and, not_not] at hw
        exact hw (by simpa using hd)
      exact hs (by simp [driveEn, ha])

theorem freedom_loop {c : Instr} (h : freedom c = .loop) : c = .estopLoopOpen := by
  cases c <;> simp [freedom] at h ⊢

/-- Settles O13. -/
theorem stepKeepsZeroSpeedWithDriveOff : Obligations.StepKeepsZeroSpeedWithDriveOff := by
  intro s t hh hs h
  rcases step_from h with ⟨c, l, h⟩ | rfl
  · by_cases hc : freedom c = .loop
    · cases freedom_loop hc
      exact loopOpened_dutyLawful (s := { s with pending := l }) hh hs h
    · exact (exec_done_next (b := true) (.inl rfl) h).dutyLawful hc hh hs
  · exact passMs_keeps (b := true) (fun _ _ act hu => act.keeps_duty strict_ne_loop hu) (fun hu => hu) hs

end invariants

end Sys2Proof.Machine


/-! PROOFS. The invariants of the reference, of the stores and queues, of what a command settles, and of a running cue. -/

namespace Sys2Proof.Machine

section invariants
variable {b : Bool} {f : Freedom} {s t : State}

/-! ## The reference -/

theorem present_subset_presenceIn (a : AxisState) (p : Supervision) : (presenceIn a p).present ⊆ p.present :=
  List.filter_subset_self _

/-- Law 9 after a change that keeps the latched set and lets no ENCODER become present. -/
theorem ReferenceLawful.of_same (hs : ReferenceLawful s) (hr : t.meas.referenced = false → s.meas.referenced = false)
    (hc : s.ctl.ctx = none → t.ctl.ctx = none) (hp : Condition.encoder ∈ t.sup.present → Condition.encoder ∈ s.sup.present)
    (hl : Condition.encoder ∈ s.sup.latched → Condition.encoder ∈ t.sup.latched)
    (ha : s.seq.axis = .tripped → t.seq.axis = .tripped) : ReferenceLawful t :=
  ⟨fun h => hc (hs.1 (hr h)), fun h => ⟨hl (hs.2 (hp h)).1, ha (hs.2 (hp h)).2⟩⟩

/-- With ENCODER absent the axis is free. -/
theorem ReferenceLawful.absent (hs : ReferenceLawful s) (h : s.seq.axis ≠ .tripped) :
    Condition.encoder ∉ s.sup.present := fun hp => h (hs.2 hp).2

theorem contextIn_none {a : AxisState} {c : CueControl} (h : c.ctx = none) : (contextIn a c).ctx = none := by
  unfold contextIn; split
  · simp [h]
  · exact h

theorem still_referenced (h : still t = still s) : t.meas.referenced = s.meas.referenced := by
  have hm : senses t.meas = senses s.meas := congrArg Prod.fst h
  exact congrArg (fun p => p.2.2.2.2.2.2.1) hm

theorem Act.keeps_reference (hf : f ≠ .period) (h : Act b f s t) (hs : ReferenceLawful s) : ReferenceLawful t := by
  cases h
  case axis a _ _ leaves =>
    have hp := hs.absent leaves
    refine ⟨fun h => ?_, fun h => absurd (present_subset_presenceIn a _ (by simpa using h)) hp⟩
    rw [still_referenced (setAxis_still a s)] at h
    rw [setAxis_ctl]
    exact contextIn_none (hs.1 h)
  case trip o =>
    exact ⟨fun _ => enterTripped_ctx o s, fun h =>
      ⟨by simpa using (hs.2 (present_subset_presenceIn _ _ (by simpa using h))).1, by simp⟩⟩
  case rest empty =>
    have hp : Condition.encoder ∉ s.sup.present := fun h => by
      have : Condition.encoder ∈ (dropAbsent s).sup.latched := List.mem_filter.2 ⟨(hs.2 h).1, by simpa using h⟩
      simp [empty] at this
    refine ⟨fun h => ?_, fun h => absurd (present_subset_presenceIn .rest _ (by rwa [setAxis_present] at h)) hp⟩
    rw [still_referenced (setAxis_still .rest _), still_referenced (dropAbsent_still s)] at h
    rw [setAxis_ctl]
    exact contextIn_none (hs.1 h)
  case relatch =>
    refine ⟨fun h => ?_, fun h => ?_⟩
    · rw [still_referenced (followDrive_still _), still_referenced (dropAbsent_still s)] at h
      simpa [dropAbsent] using hs.1 h
    · have hp : Condition.encoder ∈ s.sup.present := by simpa [dropAbsent] using h
      exact ⟨by simpa [dropAbsent] using ⟨(hs.2 hp).1, hp⟩, by simpa [dropAbsent] using (hs.2 hp).2⟩
  case drive =>
    exact hs.of_same (by rw [still_referenced (followDrive_still _)]; exact id) (by simp) (by simp) (by simp) (by simp)
  case drop c =>
    refine hs.of_same ?_ (by simp) (fun h => by rwa [followDrive_present] at h) (by simp +contextual) (by simp)
    rw [still_referenced (followDrive_still _)]; exact id
  case seq g same => exact hs.of_same id id id id (by rw [onSeq_seq, same]; exact id)
  case control g _ same _ =>
    refine hs.of_same id (fun h => ?_) id id id
    by_contra hc
    obtain ⟨y, hy⟩ := Option.ne_none_iff_exists'.1 hc
    obtain ⟨x, hx, -⟩ := same y hy
    simp [h] at hx
  case begin r _ _ homed => exact ⟨fun h => by simp [homed] at h, hs.2⟩
  case meas g _ _ reference _ => exact hs.of_same reference id id id id
  case unreference admitted => exact absurd admitted hf
  case sup g latched fewer => exact hs.of_same id id (fun h => fewer.subset h) (by rw [onSup_sup, latched]; exact id) id
  case present c admitted =>
    have hc := admitted.resolve_left hf
    exact hs.of_same id id (fun h => ((mem_insertCondition _ _ _).1 h).resolve_left (Ne.symm hc)) id id
  case latch c _ => exact hs.of_same id id id (by simp +contextual) id
  case unlatch untripped => exact ⟨hs.1, fun h => absurd h (hs.absent untripped)⟩
  all_goals exact hs

/-- Between the finding of ENCODER and the trip it demands: the axis is watched, and one TRIPPED already has no cue. -/
def Trippable (s : State) : Prop := s.seq.axis ≠ .unaddressed ∧ (s.seq.axis = .tripped → s.ctl.ctx = none)

theorem Act.keeps_trippable (h : Act b f s t) (hs : Trippable s) : Trippable t := by
  have hsame (hc : t.ctl = s.ctl) (hx : t.seq.axis = s.seq.axis) : Trippable t := by
    rw [Trippable, hc, hx]; exact hs
  cases h
  case axis a enters addressed leaves => exact ⟨by simpa using addressed, fun h => absurd (by simpa using h) enters⟩
  case rest _ => exact ⟨by simp, by simp⟩
  case trip o => exact ⟨by simp, fun _ => by simp⟩
  case drive => exact hsame (followDrive_ctl s) (by simp)
  case drop c => exact hsame (followDrive_ctl _) (by simp)
  case relatch => exact hsame (followDrive_ctl _) (by simp [dropAbsent])
  case seq g same => exact hsame rfl same
  case control g _ same _ =>
    refine ⟨hs.1, fun h => ?_⟩
    by_contra hc
    obtain ⟨y, hy⟩ := Option.ne_none_iff_exists'.1 hc
    obtain ⟨x, hx, -⟩ := same y hy
    simp [hs.2 h] at hx
  case begin r _ allowed _ =>
    refine ⟨hs.1, fun h => ?_⟩
    have ha : s.seq.axis = .tripped := h
    simp [startAllowed, ha] at allowed
  all_goals exact hs

/-- The response to ENCODER leaves Law 9, whatever the position (R124, R141, R143). -/
theorem respond_encoder (hs : Trippable s) : ReferenceLawful (respond .encoder s) := by
  have he : respond .encoder s = dropDemand .encoder (latch .encoder s) := rfl
  rw [he]
  unfold dropDemand; split
  · rename_i ha; exact absurd ha hs.1
  · rename_i ha
    have ha : s.seq.axis = .tripped := ha
    exact ⟨fun _ => by simpa using hs.2 ha, fun _ => by simp [ha]⟩
  · exact ⟨fun _ => by simp, fun _ => by simp⟩

theorem strict_ne_period : Freedom.strict ≠ .period := nofun

theorem Acts.keeps_reference (h : Acts b .strict s t) (hs : ReferenceLawful s) : ReferenceLawful t :=
  h.keeps (fun _ _ act hu => act.keeps_reference strict_ne_period hu) hs

theorem setPresence_rest (c : Condition) (d : Bool) (s : State) :
    (setPresence c d s).ctl = s.ctl ∧ (setPresence c d s).seq = s.seq ∧
      (setPresence c d s).sup.latched = s.sup.latched := by
  unfold setPresence; split <;> exact ⟨rfl, rfl, rfl⟩

/-- The speed tests in their order (R138, R139, R141, log 37). -/
theorem judgeMotion_eq (s : State) :
    judgeMotion s =
      respondIf .encoder (encoderNow s && !isPresent s .encoder)
        (judgeFollowing (respondIf .overspeed (overspeedNow s && !isPresent s .overspeed)
          (loseReference (encoderNow s)
            (setPresence .encoder (encoderNow s) (setPresence .overspeed (overspeedNow s) s))))) := rfl

/-- The speed tests of a period keep Law 9: ENCODER found anew trips, and found again was tripped before (R138, R141). -/
theorem judgeMotion_reference (hs : ReferenceLawful s) (ht : Trippable s) : ReferenceLawful (judgeMotion s) := by
  have judged (d : Bool) {u v : State} (h : Acts true .strict u v) :
      Acts true .strict u (judgeFollowing (respondIf .overspeed d v)) :=
    judgeFollowing_acts (respondIf_acts (.inl rfl) _ h)
  rw [judgeMotion_eq]
  cases hj : encoderNow s with
  | false =>
    have h1 : Acts true .strict s (setPresence .encoder false (setPresence .overspeed (overspeedNow s) s)) :=
      markAbsent_acts _ (setPresence_acts (.inr (by decide)) _ .refl)
    exact (judged _ h1).keeps_reference hs
  | true =>
    cases hp : isPresent s .encoder with
    | false =>
      have h1 : Acts true .period s (loseReference true (setPresence .encoder true
          (setPresence .overspeed (overspeedNow s) s))) :=
        .tail (setPresence_acts (.inl rfl) _ (setPresence_acts (.inl rfl) _ .refl)) (.unreference _ rfl)
      exact respond_encoder ((judgeFollowing_acts (respondIf_acts (.inl rfl) _ h1)).keeps
        (fun _ _ act hu => act.keeps_trippable hu) ht)
    | true =>
      have hm : Condition.encoder ∈ s.sup.present := by simpa [isPresent] using hp
      obtain ⟨hl, ha⟩ := hs.2 hm
      have h1 : ReferenceLawful (loseReference true (setPresence .encoder true
          (setPresence .overspeed (overspeedNow s) s))) := by
        obtain ⟨hc1, hq1, hl1⟩ := setPresence_rest .overspeed (overspeedNow s) s
        obtain ⟨hc2, hq2, hl2⟩ := setPresence_rest .encoder true (setPresence .overspeed (overspeedNow s) s)
        refine ⟨fun _ => ?_, fun _ => ⟨?_, ?_⟩⟩
        · exact (congrArg CueControl.ctx (hc2.trans hc1)).trans (ht.2 ha)
        · exact (congrArg (Condition.encoder ∈ ·) (hl2.trans hl1)).mpr hl
        · exact (congrArg Sequencer.axis (hq2.trans hq1)).trans ha
      exact (judged _ .refl).keeps_reference h1

theorem profilePeriod_reference (hc : ContextLawful s) (hs : ReferenceLawful s) (h : exec .profilePeriod s = .next t) :
    ReferenceLawful t := by
  have hfin {u : State} (hu : ReferenceLawful u) : ReferenceLawful (finish u) :=
    finish_keeps (b := true) (f := .strict) (fun _ _ act hu => act.keeps_reference strict_ne_period hu) (fun _ hu => hu) hu
  simp only [exec, execProfilePeriod] at h
  split at h
  · cases h; exact hs
  · cases h
    refine hfin (Acts.keeps_reference (b := true) (actOn_acts _ .refl) ?_)
    split
    · rename_i hw
      have h1 : Acts true .strict s (runGenerator (beforeGenerator s)).1 := runGenerator_acts (beforeGenerator_acts .refl)
      refine judgeMotion_reference (h1.keeps_reference hs) (h1.keeps (fun _ _ act hu => act.keeps_trippable hu) ⟨?_, fun ha => ?_⟩)
      · simp only [watched, Bool.and_eq_true, decide_eq_true_eq] at hw; exact hw.2
      · cases hx : s.ctl.ctx with
        | none => rfl
        | some x => simpa [contextPlaced, ha] using hc x hx
    · exact Acts.keeps_reference (b := true) (runGenerator_acts .refl) hs

theorem Done.referenceLawful (hf : f ≠ .period) (h : Done b f s t) (hh : HeldLawful s) (hs : ReferenceLawful s) :
    ReferenceLawful t :=
  h.keeps (fun _ _ act hu => act.keeps_reference hf hu) (fun _ hu => hu)
    (fun req hu => by
      have hm : t.meas = s.meas := congrArg (fun p => p.2.2.2.2.2.1) req.same
      have hq : t.seq = s.seq := congrArg (fun p => p.2.2.2.1) req.same
      have hp : t.sup = s.sup := congrArg (fun p => p.2.2.2.2.2.2.2.2.2.1) req.same
      have hc : t.ctl = s.ctl := congrArg (fun p => p.2.2.2.2.2.2.1) req.same
      simpa only [ReferenceLawful, hm, hq, hp, hc] using hu)
    (fun _ => ⟨fun _ => rfl, fun h => nomatch h⟩)
    (fun own hd _ => by
      obtain ⟨-, -, -, hc, -⟩ := hh hd
      refine ⟨fun _ => by simp [stateEntry, hc, CueControl.reset], fun h => ?_⟩
      simp only [stateEntry, entryConditions] at h
      split at h
      · cases h
      · simp [conditionsWhere] at h) hs

theorem freedom_period {c : Instr} (h : freedom c = .period) : c = .profilePeriod := by
  cases c <;> simp [freedom] at h ⊢

/-- Settles O11: ENCODER becomes present in PROFILE_PERIOD only, which trips the axis. -/
theorem stepKeepsContextReferenced : Obligations.StepKeepsContextReferenced := by
  intro s t hh hc hs h
  rcases step_from h with ⟨c, l, h⟩ | rfl
  · by_cases hf : freedom c = .period
    · cases freedom_period hf
      exact profilePeriod_reference (s := { s with pending := l }) hc hs h
    · exact (exec_done_next (b := true) (.inl rfl) h).referenceLawful hf hh hs
  · exact passMs_keeps (b := true) (fun _ _ act hu => act.keeps_reference strict_ne_period hu)
      (fun hu => hu) hs

/-! ## Queues, condition sets, duty registers -/

theorem enterTripped_lineQueues (o : CueOutcome) (s : State) :
    (enterTripped o s).line.marks = s.line.marks ∧ (enterTripped o s).line.replies = s.line.replies := by simp [noteChange]

theorem quiet_store (h : quiet t = quiet s) : t.store = s.store := congrArg (fun p => p.2.2.2.2.2.1) h

theorem QueuesLawful.of_same (hs : QueuesLawful s) (hq : quiet t = quiet s) (hm : t.line.marks = s.line.marks)
    (hr : t.line.replies = s.line.replies) : QueuesLawful t := by
  simpa only [QueuesLawful, hm, hr, quiet_store hq] using hs

theorem Act.keeps_queues (h : Act b f s t) (hs : QueuesLawful s) : QueuesLawful t := by
  have hq := h.quiet
  cases h
  case axis a _ _ _ => exact hs.of_same hq (by simp [noteChange]) (by simp [noteChange])
  case rest _ => exact hs.of_same hq (by simp [noteChange, dropAbsent]) (by simp [noteChange, dropAbsent])
  case trip o => exact hs.of_same hq (enterTripped_lineQueues o s).1 (enterTripped_lineQueues o s).2
  case drive => exact hs.of_same hq (by simp) (by simp)
  case drop c => exact hs.of_same hq (by rw [followDrive_line]; rfl) (by rw [followDrive_line]; rfl)
  case relatch => exact hs.of_same hq (by simp [dropAbsent]) (by simp [dropAbsent])
  case line g marks replies _ =>
    obtain ⟨hm, hr, hw⟩ := hs
    refine ⟨marks.elim id fun h => h.trans hm, ?_, hw⟩
    simp only [onLine_line, onLine_store]; omega
  case reply r room => exact queueReply_queues r room hs
  all_goals exact hs

theorem codes_conditionsWhere (p : Condition → Bool) : ((conditionsWhere p).map Condition.code).Pairwise (· < ·) :=
  List.Pairwise.sublist (List.filter_sublist.map _) (by decide : (allConditions.map Condition.code).Pairwise (· < ·))

theorem codes_insertCondition (c : Condition) (l : List Condition) :
    ((insertCondition c l).map Condition.code).Pairwise (· < ·) := codes_conditionsWhere _

theorem codes_sublist {l l' : List Condition} (h : l'.Sublist l) (hl : (l.map Condition.code).Pairwise (· < ·)) :
    (l'.map Condition.code).Pairwise (· < ·) := hl.sublist (h.map _)

theorem Act.keeps_conditions (h : Act b f s t) (hs : ConditionsLawful s) : ConditionsLawful t := by
  obtain ⟨hl, hp⟩ := hs
  cases h
  case axis a _ _ _ =>
    exact ⟨by rwa [setAxis_latched], by rw [setAxis_present]; exact codes_sublist List.filter_sublist hp⟩
  case rest _ =>
    refine ⟨?_, by rw [setAxis_present]; exact codes_sublist List.filter_sublist hp⟩
    rw [setAxis_latched]; exact codes_sublist List.filter_sublist hl
  case trip o =>
    exact ⟨by rwa [enterTripped_latched], by rw [enterTripped_present]; exact codes_sublist List.filter_sublist hp⟩
  case drive => exact ⟨by rwa [followDrive_latched], by rwa [followDrive_present]⟩
  case drop c => exact ⟨by rw [followDrive_latched]; exact codes_insertCondition _ _, by rwa [followDrive_present]⟩
  case relatch =>
    exact ⟨by rw [followDrive_latched]; exact codes_sublist List.filter_sublist hl, by rwa [followDrive_present]⟩
  case sup g latched fewer => exact ⟨by rwa [onSup_sup, latched], codes_sublist fewer hp⟩
  case present c _ => exact ⟨hl, codes_insertCondition _ _⟩
  case latch c _ => exact ⟨codes_insertCondition _ _, hp⟩
  case unlatch _ => exact ⟨codes_sublist List.filter_sublist hl, hp⟩
  all_goals exact ⟨hl, hp⟩

/-- The registers are as they were or at 2048. -/
theorem DutyInRange.of_forced (hs : DutyInRange s)
    (hp : t.meas.pendingDuty = s.meas.pendingDuty ∨ t.meas.pendingDuty = 2048)
    (ha : t.meas.activeDuty = s.meas.activeDuty ∨ t.meas.activeDuty = 2048) : DutyInRange t := by
  obtain ⟨h1, h2⟩ := hs
  refine ⟨?_, ?_⟩
  · rcases hp with hp | hp <;> rw [hp]
    · exact h1
    · decide
  · rcases ha with ha | ha <;> rw [ha]
    · exact h2
    · decide

theorem setAxis_dutyInRange (a : AxisState) (hs : DutyInRange s) : DutyInRange (setAxis a s) := by
  obtain ⟨h1, h2⟩ := setAxis_duty a s
  refine hs.of_forced ?_ ?_
  · rw [h1]; split
    · exact .inr rfl
    · exact .inl rfl
  · rw [h2]; split
    · exact .inr rfl
    · exact .inl rfl

theorem followDrive_dutyInRange (hs : DutyInRange s) : DutyInRange (followDrive s) := by
  refine hs.of_forced ?_ ?_ <;> rw [followDrive_meas] <;> split <;> simp

theorem Act.keeps_dutyRange (h : Act b f s t) (hs : DutyInRange s) : DutyInRange t := by
  cases h
  case axis a _ _ _ => exact setAxis_dutyInRange a hs
  case rest _ => exact setAxis_dutyInRange (s := dropAbsent s) .rest hs
  case trip o =>
    have h := setAxis_dutyInRange .tripped hs
    simpa only [DutyInRange, enterTripped_meas] using h
  case drive => exact followDrive_dutyInRange hs
  case drop c => exact followDrive_dutyInRange (s := Machine.latch c s) hs
  case relatch => exact followDrive_dutyInRange (s := dropAbsent s) hs
  case meas g pending active _ _ => exact hs.of_forced (.inl pending) (.inl active)
  case duty d range =>
    refine ⟨?_, hs.2⟩
    simp only [writeDuty, onMeas_meas]; split
    · exact range
    · decide
  case boundary => exact ⟨hs.1, hs.1⟩
  all_goals exact hs

/-! ## The cue table -/

/-- The numbers of a table, in its order. -/
def numbers (l : List CueRecord) : List Nat := l.map (·.cue.number)

theorem mem_numbers_insertRecord (r : CueRecord) (l : List CueRecord) (n : Nat) :
    n ∈ numbers (insertRecord r l) ↔ n = r.cue.number ∨ n ∈ numbers l := by
  induction l with
  | nil => simp [insertRecord, numbers]
  | cons q l ih =>
    unfold insertRecord; split
    · simp [numbers]
    · split
      · rename_i h; simp only [numbers, List.map_cons, List.mem_cons, h]; tauto
      · simp only [numbers, List.map_cons, List.mem_cons] at ih ⊢; rw [ih]; tauto

theorem numbers_insertRecord_sorted (r : CueRecord) {l : List CueRecord} (h : (numbers l).Pairwise (· < ·)) :
    (numbers (insertRecord r l)).Pairwise (· < ·) := by
  induction l with
  | nil => simp [insertRecord, numbers]
  | cons q l ih =>
    have h' : (∀ n ∈ numbers l, q.cue.number < n) ∧ (numbers l).Pairwise (· < ·) := List.pairwise_cons.1 h
    unfold insertRecord; split
    · rename_i hlt
      refine List.pairwise_cons.2 ⟨fun n hn => ?_, h⟩
      rcases List.mem_cons.1 hn with rfl | hn
      · exact hlt
      · exact hlt.trans (h'.1 n hn)
    · split
      · rename_i he
        refine List.pairwise_cons.2 ⟨fun n hn => ?_, h'.2⟩
        exact (congrArg (· < n) he).mpr (h'.1 n hn)
      · rename_i h1 h2
        refine List.pairwise_cons.2 ⟨fun n hn => ?_, ih h'.2⟩
        rcases (mem_numbers_insertRecord r l n).1 hn with rfl | hn
        · exact lt_of_le_of_ne (not_lt.1 h1) (Ne.symm h2)
        · exact h'.1 n hn

/-- A record under a number of the table takes its place; under another it takes one more. -/
theorem length_insertRecord_le (r : CueRecord) {l : List CueRecord} (h : (numbers l).Pairwise (· < ·)) :
    (insertRecord r l).length ≤ l.length + (if r.cue.number ∈ numbers l then 0 else 1) := by
  have hnd : (numbers (insertRecord r l)).Nodup := (numbers_insertRecord_sorted r h).imp fun h => Nat.ne_of_lt h
  split
  · rename_i hm
    have hsub : numbers (insertRecord r l) ⊆ numbers l := fun n hn => by
      rcases (mem_numbers_insertRecord r l n).1 hn with rfl | hn
      · exact hm
      · exact hn
    simpa [numbers] using (List.subperm_of_subset hnd hsub).length_le
  · have hsub : numbers (insertRecord r l) ⊆ r.cue.number :: numbers l := fun n hn =>
      List.mem_cons.2 ((mem_numbers_insertRecord r l n).1 hn)
    simpa [numbers] using (List.subperm_of_subset hnd hsub).length_le

theorem findCue_isSome_iff (l : List CueRecord) (n : Nat) : (findCue l n).isSome = true ↔ n ∈ numbers l := by
  simp [findCue, numbers]

theorem foldl_insertRecord_table (l : List CueRecord) {l₀ : List CueRecord} (h : (numbers l₀).Pairwise (· < ·)) :
    (numbers (l.foldl (fun t r => insertRecord r t) l₀)).Pairwise (· < ·) ∧
      (l.foldl (fun t r => insertRecord r t) l₀).length ≤ l₀.length + l.length := by
  induction l generalizing l₀ with
  | nil => exact ⟨h, le_refl _⟩
  | cons r l ih =>
    obtain ⟨h1, h2⟩ := ih (numbers_insertRecord_sorted r h)
    have h3 := length_insertRecord_le r h
    refine ⟨h1, h2.trans ?_⟩
    rw [List.length_cons]
    split at h3 <;> omega

/-- The power-on load takes at most 200 records, in ascending order (R51, log 53). -/
theorem loadedTable_lawful (live : Setup) (own : Nat) (nv : NvCues) :
    (loadedTable live own nv).length ≤ 200 ∧ (numbers (loadedTable live own nv)).Pairwise (· < ·) := by
  unfold loadedTable; split
  · rename_i hg
    have hc : nv.count ≤ 200 := by
      unfold storeStateOf at hg; split at hg
      · rename_i h; simp only [Bool.and_eq_true, decide_eq_true_eq] at h; exact h.2
      · cases hg
    obtain ⟨h1, h2⟩ := foldl_insertRecord_table ((nv.stored.filter (revalidated live own)).map takenRecord)
      (l₀ := []) List.Pairwise.nil
    refine ⟨h2.trans ?_, h1⟩
    have h3 : (nv.stored.filter (revalidated live own)).length ≤ nv.stored.length := List.length_filter_le _ _
    simp only [NvCues.stored, List.length_take] at h3 ⊢
    simp only [List.length_nil, List.length_map]; omega
  · exact ⟨Nat.zero_le _, List.Pairwise.nil⟩
  · exact ⟨Nat.zero_le _, List.Pairwise.nil⟩

theorem Requested.tableLawful (h : Requested s t) (hs : TableLawful s) : TableLawful t := by
  obtain ⟨hl, ho⟩ := hs
  cases h.table with
  | same ht => rw [TableLawful, ht]; exact ⟨hl, ho⟩
  | taken r hr ht =>
    obtain ⟨-, -, -, hroom⟩ := loadRefusal_none hr
    have h1 := length_insertRecord_le (takenRecord (recordOf r)) ho
    rw [TableLawful, ht]
    refine ⟨?_, numbers_insertRecord_sorted _ ho⟩
    rcases hroom with hroom | hroom
    · split at h1 <;> omega
    · rw [if_pos (show (takenRecord (recordOf r)).cue.number ∈ _ from (findCue_isSome_iff _ _).1 hroom)] at h1
      exact h1.trans hl
  | dropped n ht =>
    have hsub : (removeRecord n s.table).Sublist s.table := List.filter_sublist
    rw [TableLawful, ht]
    exact ⟨hsub.length_le.trans hl, ho.sublist (hsub.map _)⟩

/-- The stores within their capacities and orders. -/
def StoresKept (s : State) : Prop := TableLawful s ∧ QueuesLawful s ∧ ConditionsLawful s ∧ DutyInRange s

theorem Act.keeps_stores (h : Act b f s t) (hs : StoresKept s) : StoresKept t := by
  obtain ⟨ht, hq, hc, hd⟩ := hs
  refine ⟨?_, h.keeps_queues hq, h.keeps_conditions hc, h.keeps_dutyRange hd⟩
  have : t.table = s.table := congrArg (fun p => p.2.2.2.2.1) h.quiet
  rwa [TableLawful, this]

theorem Requested.storesKept (h : Requested s t) (hs : StoresKept s) : StoresKept t := by
  obtain ⟨ht, hq, hc, hd⟩ := hs
  have hm : t.meas = s.meas := congrArg (fun p => p.2.2.2.2.2.1) h.same
  have hp : t.sup = s.sup := congrArg (fun p => p.2.2.2.2.2.2.2.2.2.1) h.same
  exact ⟨h.tableLawful ht, h.queues hq, by rwa [ConditionsLawful, hp], by rwa [DutyInRange, hm]⟩

theorem applyReset_storesKept (cause : ResetCause) (s : State) : StoresKept (applyReset cause s) :=
  ⟨⟨Nat.zero_le _, List.Pairwise.nil⟩, ⟨Nat.zero_le _, Nat.zero_le _, fun _ => rfl⟩, ⟨List.Pairwise.nil, List.Pairwise.nil⟩,
    (by decide : DutyInRange State.reset)⟩

theorem stateEntry_storesKept (own : Nat) (hs : StoresKept s) : StoresKept (stateEntry own s) := by
  obtain ⟨-, hq, -, hd⟩ := hs
  have hc : ((entryConditions own (setupGood own s.store.nvSetup) s.inp.loopOpen).map Condition.code).Pairwise (· < ·) := by
    unfold entryConditions; split
    · exact List.Pairwise.nil
    · exact codes_conditionsWhere _
  exact ⟨loadedTable_lawful _ _ _, hq, ⟨hc, hc⟩, hd⟩

theorem Done.storesKept (h : Done b f s t) (hs : StoresKept s) : StoresKept t :=
  h.keeps (fun _ _ act hu => act.keeps_stores hu) (fun _ hu => hu) (fun req hu => req.storesKept hu)
    (fun cause => applyReset_storesKept cause s) (fun own _ hu => stateEntry_storesKept own hu) hs

/-- Settles O14. -/
theorem stepKeepsStores : Obligations.StepKeepsStores := by
  intro s t ht hq hc hd h
  have hs : StoresKept s := ⟨ht, hq, hc, hd⟩
  rcases step_from h with ⟨c, l, h⟩ | rfl
  · exact (exec_done_next (b := true) (.inl rfl) h).storesKept hs
  · exact passMs_keeps (b := true) (fun _ _ act hu => act.keeps_stores hu) (fun hu => hu) hs

end invariants

end Sys2Proof.Machine


/-! PROOFS. What a command settles and what it keeps of a running cue; the reset state. -/

namespace Sys2Proof.Machine

section commands
variable {b : Bool} {f : Freedom} {s t : State}

/-! ## Settled states -/

theorem restConditions_finish (s : State) : restConditions (finish s) = restConditions s := by
  simp [restConditions]

/-- A command that ends leaves nothing to settle. -/
theorem settled_finish (s : State) : Settled (finish s) := by
  refine (settled_iff _).2 ⟨rfl, ?_⟩
  rw [restFollow_rest, restConditions_finish, finish_seq, finish_store, restFollow_rest]
  split
  · split <;> rfl
  · rfl

theorem settled_steady (hs : Settled s) (h : Steady s t) : Settled t := by
  obtain ⟨hd, hq, ha, hc, hl⟩ := h
  exact settled_of hs hd hq ha hc hl

theorem settled_buildAnnounce (c : AnnounceCause) (hs : Settled s) : Settled (buildAnnounce c s) := by
  refine settled_steady hs ?_
  unfold buildAnnounce; split
  · exact ⟨rfl, rfl, rfl, rfl, rfl⟩
  · exact .refl s

theorem Requested.steady (h : Requested s t) : Steady s t := by
  have hc : t.ctl = s.ctl := congrArg (fun p => p.2.2.2.2.2.2.1) h.same
  exact ⟨congrArg (fun p => p.2.2.2.2.2.2.2.2.2.2.2.1) h.same, congrArg (fun p => p.2.2.2.1) h.same, by rw [hc],
    by rw [hc], congrArg (fun p => p.2.2.2.2.2.2.2.2.2.2.2.2.1) h.same⟩

theorem Done.settled (h : Done b f s t) (hs : Settled s) : Settled t := by
  cases h with
  | finished u _ => exact settled_finish u
  | steady _ _ steady => exact settled_steady hs steady
  | stored _ requested => exact settled_steady hs requested.steady
  | reset cause => exact (settled_iff _).2 ⟨rfl, rfl⟩
  | poweredOn cause straps _ => exact settled_buildAnnounce _ (settled_finish _)

theorem settled_passMs (hs : Settled s) : Settled (passMs s) := by
  unfold passMs; split
  · exact settled_of hs rfl rfl rfl rfl rfl
  · obtain ⟨hd, hr⟩ := (settled_iff _).1 hs
    have hcond : restConditions (tickMs s) = restConditions s := by
      simp [restConditions, tickMs, tickSeq, tickCtl]
      rfl
    refine (settled_iff _).2 ⟨hd, ?_⟩
    rw [restFollow_rest] at hr ⊢
    rw [hcond]
    change _ = countDown s.seq.rest
    by_cases hcon : restConditions s = true
    · by_cases hz : s.store.live.restCount = 0
      · rw [if_pos hcon, if_pos hz] at hr
        rw [if_pos hcon, if_pos (show (tickMs s).store.live.restCount = 0 from hz), ← hr]
        rfl
      · rw [if_pos hcon, if_neg hz] at hr
        rw [if_pos hcon, if_neg (show ¬(tickMs s).store.live.restCount = 0 from hz)]
        change some ((countDown s.seq.rest).getD _) = _
        rw [← hr]
        rfl
    · rw [if_neg hcon] at hr ⊢
      rw [← hr]
      rfl

/-- Settles O15. -/
theorem stepKeepsSettled : Obligations.StepKeepsSettled := by
  intro s t hs h
  rcases step_from h with ⟨c, l, h⟩ | rfl
  · exact (exec_done_next (b := true) (.inl rfl) h).settled (settled_of hs rfl rfl rfl rfl rfl)
  · exact settled_passMs hs

/-! ## STATUS for every change of axis state -/

/-- A change of axis state is owed a STATUS, and none owed is forgiven (R1, R161). -/
def Owes (s t : State) : Prop :=
  s.line.statusDue ≤ t.line.statusDue ∧ (t.seq.axis ≠ s.seq.axis → s.line.statusDue < t.line.statusDue)

theorem Act.owes (h : Act b f s t) : Owes s t := by
  have hsame (hl : t.line.statusDue = s.line.statusDue) (hx : t.seq.axis = s.seq.axis) : Owes s t :=
    ⟨hl.ge, fun h => absurd hx h⟩
  cases h
  case axis a _ _ _ => simp [Owes, noteChange]
  case rest _ => simp [Owes, noteChange, dropAbsent]
  case trip o => simp [Owes, noteChange]
  case drive => exact hsame (by simp) (by simp)
  case drop c => exact hsame (by rw [followDrive_line]; rfl) (by simp)
  case relatch => exact hsame (by simp [dropAbsent]) (by simp [dropAbsent])
  case seq g same => exact hsame rfl same
  case line g _ _ due => exact ⟨due, fun h => absurd rfl h⟩
  all_goals exact hsame rfl rfl

theorem Acts.owes (h : Acts b f s t) : Owes s t := by
  refine h.keeps (P := Owes s) (fun u v act hu => ?_) ⟨le_refl _, fun h => absurd rfl h⟩
  obtain ⟨h1, h2⟩ := hu
  obtain ⟨h3, h4⟩ := act.owes
  refine ⟨h1.trans h3, fun hx => ?_⟩
  by_cases hv : v.seq.axis = u.seq.axis
  · exact (h2 (hv ▸ hx)).trans_le h3
  · exact h1.trans_lt (h4 hv)

/-- A STATUS in the slot shows the axis state, and the status timer has been restarted. -/
def Reported (t : State) : Prop :=
  (∃ q, t.line.status = some q ∧ q.body.axis = t.seq.axis) ∧ t.line.timer = some t.store.live.statusInterval

theorem reported_buildStatus (h : addressed s = true) : Reported (buildStatus s) := by
  simp only [buildStatus, h, if_true]
  exact ⟨⟨_, rfl, rfl⟩, rfl⟩

@[simp] theorem addressed_buildStatus (s : State) : addressed (buildStatus s) = addressed s := by simp [addressed]
@[simp] theorem addressed_finish (s : State) : addressed (finish s) = addressed s := by simp [addressed]

/-- A command that owes a STATUS builds it when it ends (log 12). -/
theorem reported_finish (hd : s.line.statusDue ≠ 0) (ha : addressed s = true) : Reported (finish s) := by
  obtain ⟨n, hn⟩ := Nat.exists_eq_succ_of_ne_zero hd
  have he : finish s = (buildStatus (buildStatus^[n] (restFollow s))).onLine fun l => { l with statusDue := 0 } := by
    rw [← Function.iterate_succ_apply' buildStatus, ← hn]; rfl
  rw [he]
  refine reported_buildStatus ?_
  rw [iterate_keeps addressed addressed_buildStatus]
  exact ha

theorem reported_buildAnnounce (c : AnnounceCause) (h : Reported s) : Reported (buildAnnounce c s) := by
  unfold buildAnnounce; split <;> exact h

/-- Settles O17. -/
theorem axisChangeBuildsStatus : Obligations.AxisChangeBuildsStatus := by
  intro c s t hs h ha hx
  cases exec_done_next (b := true) (.inl rfl) h with
  | finished u acts =>
    have hu : u.seq.axis ≠ s.seq.axis := by simpa using hx
    exact reported_finish (by have := acts.owes.2 hu; omega) (by simpa using ha)
  | steady _ _ steady => exact absurd (congrArg Sequencer.axis steady.2.1) hx
  | stored _ requested => exact absurd (congrArg Sequencer.axis requested.steady.2.1) hx
  | reset cause => simp [addressed, applyReset] at ha
  | poweredOn cause straps _ =>
    have hw : Acts true .strict (stateEntry straps.toNat s) (watchLevels (stateEntry straps.toNat s)) := watchLevels_acts .refl
    have hb : addressed (buildAnnounce (.reset cause) (finish (watchLevels (stateEntry straps.toNat s)))) =
        addressed (watchLevels (stateEntry straps.toNat s)) := by
      unfold buildAnnounce; split
      · simp [addressed]
      · simp
    refine reported_buildAnnounce _ (reported_finish ?_ (hb ▸ ha))
    have h1 := hw.owes.1
    have h2 : (stateEntry straps.toNat s).line.statusDue = s.line.statusDue + 1 := rfl
    omega

/-! ## The running cue -/

/-- The cue, if one still runs, is that of a record, and the progress has not fallen below a value. -/
def RunsOn (r : CueRecord) (n : Nat) (s : State) : Prop := ∀ y, s.ctl.ctx = some y → n ≤ s.gen.progress ∧ y.record = r

theorem Act.keeps_running {r : CueRecord} {n : Nat} (h : Act false f s t) (hs : RunsOn r n s) : RunsOn r n t := by
  have hax {a : AxisState} {u : State} (hu : RunsOn r n u) : RunsOn r n (setAxis a u) := by
    intro y hy
    rw [setAxis_gen]
    rw [setAxis_ctl, contextIn] at hy
    split at hy
    · obtain ⟨x, hx, rfl⟩ := Option.map_eq_some_iff.1 hy
      exact hu x hx
    · exact hu y hy
  cases h
  case axis a _ _ _ => exact hax hs
  case rest _ => exact hax (u := dropAbsent s) hs
  case trip o => intro y hy; simp at hy
  case drive => simpa [RunsOn] using hs
  case drop c => simpa [RunsOn] using hs
  case relatch => simpa [RunsOn, dropAbsent] using hs
  case control g _ same _ =>
    intro y hy
    obtain ⟨x, hx, hr⟩ := same y hy
    exact ⟨(hs x hx).1, hr.trans (hs x hx).2⟩
  case begin admitted _ _ => cases admitted
  case restart admitted => cases admitted
  case gen g rises => exact fun y hy => ⟨(hs y hy).1.trans rises, (hs y hy).2⟩
  all_goals exact hs

/-- Settles O16: with a cue running none starts, and only a start lowers the progress. -/
theorem progressNeverFalls : Obligations.ProgressNeverFalls := by
  intro c s t x y h hx hy
  have hd := exec_done_next (b := false) (.inr (by simp [hx])) h
  refine hd.keeps (P := RunsOn x.record s.gen.progress) (fun _ _ act hu => act.keeps_running hu) (fun _ hu => hu)
    (fun req hu => ?_) (fun _ y hy => by cases hy) (fun _ _ hu => hu) (fun z hz => ?_) y hy
  · have hc : t.ctl = s.ctl := congrArg (fun p => p.2.2.2.2.2.2.1) req.same
    have hg : t.gen = s.gen := congrArg (fun p => p.2.2.2.2.1) req.same
    rwa [RunsOn, hc, hg]
  · rw [hx] at hz; cases hz; exact ⟨le_refl _, rfl⟩

end commands

end Sys2Proof.Machine


/-! PROOFS. Resets: what a reset sets, what holds while it is applied, and time with no command waiting. -/

namespace Sys2Proof.Machine

/-! ## Resets -/

theorem applyReset_heldLawful (cause : ResetCause) (s : State) : HeldLawful (applyReset cause s) :=
  fun _ => ⟨rfl, rfl, rfl, rfl, rfl, rfl, rfl, rfl, rfl, rfl, rfl, rfl⟩

theorem resetCause_later {cause : ResetCause} {s : State} (h : s.held = none ∨ s.resetNow = false) :
    resetCause cause s = cause := by
  rcases h with h | h
  · simp [resetCause, h]
  · unfold resetCause; split <;> simp [h]

theorem resetCause_same {cause other : ResetCause} {s : State} (h : s.held = some other) (hn : s.resetNow = true) :
    some (resetCause cause s) =
      [ResetCause.powerOn, .supplyDip, .resetPin].find? fun k => k = cause ∨ k = other := by
  simp only [resetCause, h, hn, if_true]
  cases cause <;> cases other <;> rfl

theorem nvAfterReset_of_idle {s : State} (h : s.store.writing = false) : nvAfterReset s = s.store.nvSetup := by
  simp [nvAfterReset, h]

theorem nvAfterReset_cases (s : State) :
    nvAfterReset s = s.store.nvSetup ∨ nvAfterReset s = writtenSetup s.store.image s.store.revision := by
  unfold nvAfterReset; split
  · exact .inr rfl
  · exact .inl rfl

/-- What `ResetSetsBlocks` says of a state, for the reset of one cause. -/
theorem applyReset_sets (s : State) (cause : ResetCause) :
    let t := applyReset cause s
    driveEn t = false ∧ brakeRel t = false ∧ t.inp = s.inp ∧ t.pending = s.pending ∧ t.store.nvCues = s.store.nvCues :=
  ⟨by simp [driveEn, applyReset, State.reset, Sequencer.reset],
    by simp [brakeRel, brakeRelIn, applyReset, State.reset, Sequencer.reset], rfl, rfl, rfl⟩

/-- Settles O4. -/
theorem resetSetsBlocks : Obligations.ResetSetsBlocks := by
  intro s c cause h
  have hc : exec c s = .next (applyReset cause s) := by
    simp only [List.mem_cons, Prod.mk.injEq, List.not_mem_nil, or_false] at h
    rcases h with ⟨rfl, rfl⟩ | ⟨rfl, rfl⟩ | ⟨rfl, rfl⟩ <;> rfl
  obtain ⟨hd, hb, hi, hp, hn⟩ := applyReset_sets s cause
  refine ⟨_, hc, applyReset_heldLawful cause s, rfl, fun h => congrArg some (resetCause_later h),
    fun other ho hr => resetCause_same ho hr, hd, hb, rfl, rfl, rfl, rfl, rfl, rfl, rfl, rfl, rfl, rfl, rfl, rfl, rfl, rfl,
    rfl, rfl, rfl, rfl, rfl, rfl, rfl, rfl, rfl, rfl, rfl, rfl, rfl, rfl, rfl, rfl, rfl, rfl, rfl, rfl, rfl, rfl, rfl, rfl,
    rfl, rfl, rfl, rfl, rfl, rfl, rfl, rfl, rfl, hi, hp, hn, nvAfterReset_of_idle, nvAfterReset_cases s⟩

/-- Settles O5. -/
theorem resetIsLawful : Obligations.ResetIsLawful := by
  unfold Obligations.ResetIsLawful
  refine ⟨fun _ => ⟨rfl, rfl, rfl, rfl, rfl, rfl, rfl, rfl, rfl, rfl, rfl, rfl⟩, by decide, by decide, by decide, by decide,
    by decide, by decide, by decide, by decide, by decide, by decide, by decide, rfl, rfl⟩

/-! ## While a reset is applied -/

section held
variable {s : State}

theorem finish_of_held (hs : HeldLawful s) (hd : s.held.isSome = true) : finish s = s := by
  obtain ⟨hq, -, -, -, -, -, -, -, hl, -⟩ := hs hd
  refine finish_settled ((settled_iff s).2 ⟨by rw [hl]; rfl, ?_⟩)
  rw [restFollow_stopped s (by rw [hq]; decide), hq]; rfl

theorem addressed_held (hd : s.held.isSome = true) : addressed s = false := by
  cases h : s.held <;> simp_all [addressed]

theorem watched_held (hd : s.held.isSome = true) : watched s = false := by
  cases h : s.held <;> simp_all [watched]

/-- While a reset is applied no frame is taken (R158, R171). -/
theorem handOn_held (i : Instr) (hd : s.held.isSome = true) : handOn i s = .next s := by
  have ha := addressed_held hd
  cases i
  all_goals
    simp only [handOn, execStatusFrame, execMarkFrame, execStandby, execGo, execCancel, execStop, execEnable, execClear,
      execHome, execCueload, execCuedrop, execCueask, execSave, execSetup, execLinereset, axisFrameTaken, setFrameTaken,
      requestTaken, consoleFrameTaken, ha, Bool.false_and, Bool.false_eq_true, if_false]

/-- While a reset is applied, a command changes an input or releases the reset or does nothing (R3, R171). -/
theorem exec_held (hs : HeldLawful s) (hd : s.held.isSome = true) (c : Instr) : Answers (exec c s) HeldLawful := by
  have hw := watched_held hd
  obtain ⟨hq, hg, hm, hc, -, hp, -, hv, hl, hsave, hwrite, -⟩ := hs hd
  have hno {x y : Host.Outcome State Fault Refusal} {p : Prop} [Decidable p] (h : ¬p) (hy : Answers y HeldLawful) :
      Answers (if p then x else y) HeldLawful := by rw [if_neg h]; exact hy
  have hfin (f : Inputs → Inputs) : Answers (.next (finish (s.onInp f))) HeldLawful := by
    rw [finish_of_held (s := s.onInp f) hs hd]; exact .next hs
  cases c
  case powerOn => exact .next (applyReset_heldLawful _ s)
  case supplyDip => exact .next (applyReset_heldLawful _ s)
  case resetPin => exact .next (applyReset_heldLawful _ s)
  case powerOnSequence straps =>
    obtain ⟨cause, hcause⟩ := Option.isSome_iff_exists.1 hd
    refine ⟨powerOnRun cause straps s, by simp [exec, execPowerOnSequence, hcause], fun h => ?_⟩
    have h1 : (powerOnRun cause straps s).held = none := by
      have hb : (watchLevels (stateEntry straps.toNat s)).held = none :=
        ((base_eq_iff _ _).1 (watchLevels_base (stateEntry straps.toNat s))).2.1
      unfold powerOnRun buildAnnounce; split <;> simpa using hb
    rw [h1] at h; cases h
  case frameDiscarded raw =>
    simp only [exec, execFrameDiscarded]; split
    · exact .next hs
    · rw [handOn_held _ hd]; exact .next hs
  case saveComplete => simp only [exec, execSaveComplete, hsave]; exact .next hs
  case setupWriteComplete => exact hno (by simp [hwrite]) (.next hs)
  case estopLoopOpen => exact hno (by simp [hw]) (.next hs)
  case estopLoopClosed =>
    refine .next ?_
    have : markAbsent .estop (s.onInp fun p => { p with loopOpen := false }) = s.onInp fun p => { p with loopOpen := false } := by
      simp [markAbsent, dwellFollow, State.onSup, State.onInp, hv, Supervision.reset, removeCondition]
    rw [this]; exact hs
  case driveReadyAsserted =>
    have : takeReady (s.onInp fun p => { p with driveReady := true }) = s.onInp fun p => { p with driveReady := true } := by
      simp [takeReady, seeReady, driveEn, hq, Sequencer.reset]
    simp only [exec, execDriveReadyAsserted, this]; exact hfin _
  case driveReadyLost =>
    have : loseReady (s.onInp fun p => { p with driveReady := false }) = s.onInp fun p => { p with driveReady := false } := by
      simp [loseReady, driveEn, hq, Sequencer.reset]
    simp only [exec, execDriveReadyLost, this]; exact hfin _
  case driveFaultAsserted => 
    have : watched (s.onInp fun p => { p with driveFault := true }) = false := hw
    simp only [exec, execDriveFaultAsserted, evaluateLevel, this]; exact hfin _
  case driveFaultDeasserted =>
    have : watched (s.onInp fun p => { p with driveFault := false }) = false := hw
    simp only [exec, execDriveFaultDeasserted, evaluateLevel, this]; exact hfin _
  case ultimateOpen sw =>
    have : watched (s.onInp (openLimit sw)) = false := hw
    simp only [exec, execUltimateOpen, evaluateLevel, this]; exact hfin _
  case ultimateClosed =>
    have : watched (s.onInp fun p => { p with ultUpOpen := false, ultDownOpen := false }) = false := hw
    simp only [exec, execUltimateClosed, evaluateLevel, this]; exact hfin _
  case brakeFbReleased =>
    have : takeReleased (s.onInp fun p => { p with brakeReleased := true }) =
        s.onInp fun p => { p with brakeReleased := true } := by
      simp [takeReleased, hq, Sequencer.reset]
    simp only [exec, execBrakeFbReleased, this]; exact hfin _
  case brakeFbSet =>
    have : takeSet (s.onInp fun p => { p with brakeReleased := false }) =
        s.onInp fun p => { p with brakeReleased := false } := by
      simp [takeSet, markAbsent, dwellFollow, State.onSup, State.onInp, hv, hq, Sequencer.reset, Supervision.reset,
        removeCondition]
    simp only [exec, execBrakeFbSet, this]; exact hfin _
  case homeSwEdge active =>
    simp only [exec, execHomeSwEdge]; split
    · have : (s.onInp fun p => { p with homeSw := active }).onMeas (fun m => { m with capture := captureEdge m.count m.capture }) =
          s.onInp fun p => { p with homeSw := active } := by
        simp [State.onInp, State.onMeas, hm, Measure.reset, captureEdge]
      rw [this]; exact .next hs
    · exact .next hs
  case encoderStep step => simp only [exec, execEncoderStep, hd, if_true]; exact .next hs
  case profilePeriod => simp only [exec, execProfilePeriod, hd, if_true]; exact .next hs
  case peerAgeing => simp only [exec, execPeerAgeing, hd, if_true]; exact .next hs
  case pwmBoundary =>
    have : s.onMeas (fun m => { m with activeDuty := m.pendingDuty }) = s := by
      cases s; simp_all [State.onMeas, Measure.reset]
    simp only [exec, execPwmBoundary, this]; exact .next hs
  case loadConversionComplete raw => exact hno (by simp [hw]) (.next hs)
  case wakeTimeout => exact hno (by simp [hq, Sequencer.reset]) (.next hs)
  case brakeReleaseTimeout => exact hno (by simp [hq, Sequencer.reset]) (.next hs)
  case brakeSetTimeout => exact hno (by simp [hq, Sequencer.reset]) (.next hs)
  case holdToBrakeExpiry => exact hno (by simp [hq, Sequencer.reset]) (.next hs)
  case restTimerExpiry => exact hno (by simp [hq, Sequencer.reset]) (.next hs)
  case lapseTimerExpiry => exact hno (by simp [hc, CueControl.reset]) (.next hs)
  case windowExpiry cue => exact hno (by simp [windowRuns, hc, CueControl.reset]) (.next hs)
  case followDelayExpiry cue => exact hno (by simp [delayRuns, hc, CueControl.reset]) (.next hs)
  case holdLimitExceeded => exact hno (by simp [inPhase, hc, CueControl.reset]) (.next hs)
  case recoveryWaitExceeded => exact hno (by simp [waitCounts, inPhase, hc, CueControl.reset]) (.next hs)
  case dwellExpiry => exact hno (by simp [dwellRuns, hq, Sequencer.reset]) (.next hs)
  case statusTimerExpiry => exact hno (by simp [hl, LinePort.reset]) (.next hs)
  case transmitAttempt => exact hno (by simp [addressed_held hd]) (.next hs)
  case frameSent => simp only [exec, execFrameSent, hl, LinePort.reset]; exact .next hs
  case attemptFailed => simp only [exec, execAttemptFailed, hl, LinePort.reset]; exact .next hs
  all_goals rw [← handOn_exec _ _ rfl, handOn_held _ hd]; exact .next hs

/-- Only a reset is applied where none is held. -/
theorem Done.heldLawful {b : Bool} {f : Freedom} {t : State} (h : Done b f s t) (hn : s.held = none) : HeldLawful t := by
  have hfree (hu : t.held = none) : HeldLawful t := fun hd => by simp [hu] at hd
  cases h with
  | finished u acts =>
    exact hfree ((finish_held u).trans ((congrArg (fun p => p.2.1) acts.quiet).trans hn))
  | steady _ acts _ => exact hfree ((congrArg (fun p => p.2.1) acts.quiet).trans hn)
  | stored _ requested => exact hfree ((congrArg (fun p => p.2.1) requested.same).trans hn)
  | reset cause => exact applyReset_heldLawful cause s
  | poweredOn cause straps held => simp [hn] at held

/-- Settles O7. -/
theorem stepKeepsResetBlocks : Obligations.StepKeepsResetBlocks := by
  intro s t hs h
  rcases step_from h with ⟨c, l, h⟩ | rfl
  · cases hd : s.held with
    | none => exact (exec_done_next (b := true) (.inl rfl) h).heldLawful hd
    | some cause =>
      obtain ⟨u, hu, hl⟩ := exec_held (s := { s with pending := l }) hs (by simp [hd]) c
      rw [h] at hu; cases hu
      exact hl
  · unfold passMs; split
    · exact hs
    · rename_i hd
      intro ht
      exact absurd ht hd

end held

/-! ## Time with no command waiting -/

/-- Settles O3. -/
theorem idlePassesMillisecond : Obligations.IdlePassesMillisecond := by
  intro s hp
  have hstep : step s = idle s := by simp [step, hp]
  refine ⟨fun hd => ?_, fun _ i hi => ?_, fun hd hn => ?_⟩
  · simp [hstep, idle, due, hd, passMs]
  · simp [hstep, idle, hi]
  · refine ⟨tickMs s, by simp [hstep, idle, hn, passMs, hd], rfl, ?_, rfl, rfl, rfl, rfl, rfl, rfl, rfl⟩
    have hctx (x : CueContext) : tickContext s.seq.axis x =
        { x with holdTime :=
          if x.phase = .running ∧ holdCounts s.seq.axis = true then x.holdTime + 1 else x.holdTime } := by
      unfold tickContext; split <;> rfl
    change tickCtl s.seq.axis s.ctl = _
    rw [tickCtl, funext hctx]
    congr 2

end Sys2Proof.Machine


/-! PROOFS. Law 6: where a cue context may stand. One lemma per operation; what leaves the sequencer and the context's
phase alone keeps the law, what ends the cue or moves the axis to a state that always may hold one establishes it. -/

namespace Sys2Proof.Machine

section placed
variable {s t : State}

/-! ## Ways to the law -/

theorem ContextLawful.of_none (h : t.ctl.ctx = none) : ContextLawful t := by
  intro x hx; rw [h] at hx; cases hx

/-- A state in which a cue context may always stand (1.1). -/
def carries (a : AxisState) : Bool :=
  decide (a = .moving) || decide (a = .held) || decide (a = .suspended) || decide (a = .recovering)

theorem contextPlaced_of_carries {q : Sequencer} (h : carries q.axis = true) (p : CuePhase) : contextPlaced q p = true := by
  simp only [carries, Bool.or_eq_true, decide_eq_true_eq] at h
  rcases h with ((h | h) | h) | h <;> simp [contextPlaced, h]

theorem ContextLawful.of_carries (h : carries t.seq.axis = true) : ContextLawful t :=
  fun x _ => contextPlaced_of_carries h x.phase

theorem contextPlaced_ending {q : Sequencer} {p : CuePhase} (h : contextPlaced q p = true) :
    contextPlaced q .ending = true := by
  unfold contextPlaced at h ⊢
  split <;> simp_all

/-- The context, if any, is one of before in its phase or ENDING. -/
def ContextFrom (s t : State) : Prop :=
  ∀ y ∈ t.ctl.ctx, ∃ x ∈ s.ctl.ctx, y.phase = x.phase ∨ y.phase = .ending

theorem ContextFrom.of_eq (h : t.ctl.ctx = s.ctl.ctx) : ContextFrom s t := fun y hy => ⟨y, h ▸ hy, .inl rfl⟩

theorem ContextFrom.onCtx {g : CueContext → CueContext} (hg : ∀ x, (g x).phase = x.phase ∨ (g x).phase = .ending) :
    ContextFrom s (onCtx g s) := by
  intro y hy
  obtain ⟨x, hx, rfl⟩ := Option.map_eq_some_iff.1 (Option.mem_def.1 hy)
  exact ⟨x, hx, hg x⟩

theorem ContextLawful.from (h : ContextLawful s) (hc : ContextFrom s t) (hq : t.seq = s.seq) : ContextLawful t := by
  intro y hy
  obtain ⟨x, hx, hp⟩ := hc y hy
  rw [hq]
  rcases hp with hp | hp <;> rw [hp]
  · exact h x hx
  · exact contextPlaced_ending (h x hx)

theorem ContextLawful.of_eq (h : ContextLawful s) (hc : t.ctl.ctx = s.ctl.ctx) (hq : t.seq = s.seq) : ContextLawful t :=
  h.from (.of_eq hc) hq

/-- In a state that may hold no context there is none. -/
theorem ContextLawful.none (h : ContextLawful s) (hn : ∀ p, contextPlaced s.seq p = false) : s.ctl.ctx = none := by
  cases hx : s.ctl.ctx with
  | none => rfl
  | some x => exact absurd (h x hx) (by simp [hn])

theorem contextFrom_setAxis (a : AxisState) (s : State) : ContextFrom s (setAxis a s) := by
  intro y hy
  rw [setAxis_ctl, contextIn] at hy
  split at hy
  · obtain ⟨x, hx, rfl⟩ := Option.map_eq_some_iff.1 (Option.mem_def.1 hy)
    exact ⟨x, hx, .inl rfl⟩
  · exact ⟨y, hy, .inl rfl⟩

theorem setAxis_ctx_none {a : AxisState} (h : s.ctl.ctx = none) : (setAxis a s).ctl.ctx = none := by
  rw [setAxis_ctl]; exact contextIn_none h

/-! ## Operations -/

theorem placed_carries (a : AxisState) (h : carries a = true) (s : State) : ContextLawful (setAxis a s) :=
  .of_carries (by rw [setAxis_seq]; exact h)

theorem placed_confirmSet (h : s.seq.dest ≠ .parked ∨ s.ctl.ctx = none) : ContextLawful (confirmSet s) := by
  unfold confirmSet; split
  · rename_i hd; exact .of_none (setAxis_ctx_none (h.resolve_left (fun hn => hn hd)))
  · exact placed_carries _ (by decide) _
  · exact placed_carries _ (by decide) _
  · exact .of_none (enterTripped_ctx _ _)

/-- A brake set keeps a cue unless it leads to PARKED (R16). -/
theorem placed_enterSetting {d : SetDest} (h : d ≠ .parked ∨ s.ctl.ctx = none) : ContextLawful (enterSetting d s) := by
  unfold enterSetting; dsimp only; split
  · rcases h with h | h
    · intro x _; simp [contextPlaced, h]
    · exact .of_none (setAxis_ctx_none h)
  · exact placed_confirmSet (h.imp id setAxis_ctx_none)

/-- A stop keeps a cue unless it leads to PARKED with the cue going on (R14, R19). -/
theorem placed_enterStopping {k : StopKind} {d : SetDest}
    (h : d ≠ .parked ∨ ∀ x ∈ s.ctl.ctx, x.phase = .ending) : ContextLawful (enterStopping k d s) := by
  intro y hy
  obtain ⟨x, hx, hp⟩ := contextFrom_setAxis .stopping s y hy
  obtain ⟨ha, -, hd⟩ := enterStopping_axis k d s
  simp only [contextPlaced, ha, hd, Bool.or_eq_true, decide_eq_true_eq]
  refine h.imp id fun h => ?_
  rcases hp with hp | hp
  · exact hp.trans (h x hx)
  · exact hp

/-- The sequencer told of another destination that is not PARKED, in STOPPING or SETTING. -/
theorem placed_redirect {g : Sequencer → Sequencer} (ha : (g s.seq).axis = .stopping ∨ (g s.seq).axis = .setting)
    (hd : (g s.seq).dest ≠ .parked) : ContextLawful (s.onSeq g) := by
  intro x _
  rcases ha with ha | ha <;> simp [contextPlaced, ha, hd]

theorem placed_fastLatch (c : Condition) (h : ContextLawful s) : ContextLawful (fastLatch c s) := by
  unfold fastLatch; split
  · exact h
  · exact h
  · exact placed_enterStopping (.inl (by decide))
  · exact placed_enterStopping (.inl (by decide))
  · exact placed_enterStopping (.inl (by decide))
  · rename_i ha; exact placed_redirect (.inl ha) nofun
  · exact placed_enterSetting (.inl (by decide))
  · rename_i ha; exact placed_redirect (.inr ha) nofun
  all_goals exact .of_none (enterTripped_ctx _ _)

theorem placed_dropDemand (c : Condition) (h : ContextLawful s) : ContextLawful (dropDemand c s) := by
  unfold dropDemand; split
  · exact h
  · exact h.of_eq (by simp) (by simp)
  · exact .of_none (enterTripped_ctx _ _)

theorem placed_fastRecoverCue (h : ContextLawful s) : ContextLawful (fastRecoverCue s) := by
  unfold fastRecoverCue; split
  · exact placed_enterStopping (.inl (by decide))
  · exact placed_enterStopping (.inl (by decide))
  · exact h
  · exact placed_enterSetting (.inl (by decide))
  · rename_i ha
    intro x hx
    have := h x hx
    simp only [contextPlaced, onSeq_seq, ha, decide_eq_true_eq] at this ⊢
    split
    · decide
    · exact this
  · exact placed_carries _ (by decide) _
  · rename_i ha; intro x _; simp [contextPlaced, ha]
  all_goals exact h

@[simp] theorem closeHoming_ctx (r : HomingResult) (s : State) : (closeHoming r s).ctl.ctx = s.ctl.ctx := rfl
@[simp] theorem recordHoming_ctx (s : State) : (recordHoming s).ctl.ctx = s.ctl.ctx := by
  unfold recordHoming; split <;> rfl
@[simp] theorem abandonHoming_ctx (s : State) : (abandonHoming s).ctl.ctx = s.ctl.ctx := by
  simp [abandonHoming]; rfl

theorem placed_fastRecoverIdle (h : s.ctl.ctx = none) : ContextLawful (fastRecoverIdle s) := by
  unfold fastRecoverIdle; split
  · exact placed_enterStopping (.inr (by intro x hx; rw [show (onRun _ s).ctl.ctx = s.ctl.ctx from rfl, h] at hx; cases hx))
  · exact .of_none h
  · exact placed_enterSetting (.inr (by simpa))
  all_goals exact .of_none h

theorem placed_recoverOccurrence (c : Condition) (h : ContextLawful s) : ContextLawful (recoverOccurrence c s) := by
  unfold recoverOccurrence; split
  · exact placed_fastRecoverIdle ‹_›
  · split
    · exact placed_fastRecoverCue h
    · split
      · split
        · exact placed_fastRecoverCue (s := (onCtx _ s).onSup _) (h.from (.onCtx fun _ => .inl rfl) rfl)
        · exact placed_fastLatch c h
      · exact placed_fastRecoverCue h

theorem placed_respond (c : Condition) (h : ContextLawful s) : ContextLawful (respond c s) := by
  unfold respond; split
  · unfold latchDemand; split
    · exact placed_dropDemand c h
    · exact placed_fastLatch c h
  · exact placed_recoverOccurrence c h
  · exact h
  · exact h

theorem placed_evaluate (c : Condition) (d : Bool) (h : ContextLawful s) : ContextLawful (evaluate c d s) := by
  unfold evaluate; split
  · split
    · exact h
    · exact placed_respond c (s := markPresent c s) h
  · exact h

theorem placed_controlledPath (o : CueOutcome) (h : ContextLawful s) : ContextLawful (controlledPath o s) := by
  have hend : ContextLawful (setEnding o s) := h.from (.onCtx fun _ => .inr rfl) rfl
  have hphase : ∀ x ∈ (setEnding o s).ctl.ctx, x.phase = .ending := by
    intro y hy
    obtain ⟨x, -, rfl⟩ := Option.map_eq_some_iff.1 (Option.mem_def.1 hy)
    rfl
  unfold controlledPath; split
  · exact .of_none (endCue_ctx o s)
  · exact placed_enterSetting (.inr (endCue_ctx o s))
  · exact placed_enterStopping (.inr hphase)
  · exact placed_enterSetting (.inr (endCue_ctx o s))
  · exact .of_none (setAxis_ctx_none (endCue_ctx o s))
  · exact .of_none (setAxis_ctx_none (endCue_ctx o s))
  · split
    · exact .of_none (endCue_ctx o s)
    · exact hend
  · rename_i ha
    intro x hx
    simp [contextPlaced, ha, hphase x hx]
  all_goals exact hend

theorem placed_controlledEnd (o : CueOutcome) (h : ContextLawful s) : ContextLawful (controlledEnd o s) := by
  unfold controlledEnd; split
  · exact h
  · split
    · exact placed_controlledPath o h
    · exact h

theorem ContextLawful.foldl {α : Type} {op : State → α → State} (hop : ∀ u a, ContextLawful u → ContextLawful (op u a))
    (l : List α) (h : ContextLawful s) : ContextLawful (l.foldl op s) := by
  induction l generalizing s with
  | nil => exact h
  | cons a l ih => exact ih (hop _ a h)

theorem foldl_queueMark_ctl (l : List Nat) (n : Nat) (s : State) : (l.foldl (queueMark n) s).ctl = s.ctl := by
  rw [foldl_queueMark]

@[simp] theorem fireMarks_ctl (old : Position) (s : State) : (fireMarks old s).ctl = s.ctl := by
  unfold fireMarks; split
  · rfl
  · split
    · rfl
    · exact foldl_queueMark_ctl _ _ _

@[simp] theorem fireMarks_seq (old : Position) (s : State) : (fireMarks old s).seq = s.seq := by
  unfold fireMarks; split
  · rfl
  · split
    · rfl
    · rw [foldl_queueMark]; rfl

@[simp] theorem retake_ctl (s : State) : (retake s).ctl = s.ctl := fireMarks_ctl _ _

theorem placed_groupTest (n : Nat) (h : ContextLawful s) : ContextLawful (groupTest s n) := by
  unfold groupTest; split
  · exact h
  · split
    · split
      · exact placed_controlledEnd _ h
      · exact h
    · exact h

theorem placed_groupTestAll (h : ContextLawful s) : ContextLawful (groupTestAll s) := by
  unfold groupTestAll; split
  · exact h
  · exact h.foldl (fun _ n hu => placed_groupTest n hu) _

theorem placed_completeRelease (s : State) : ContextLawful (completeRelease s) := by
  unfold completeRelease; split
  · split
    · exact placed_groupTestAll (placed_carries _ (by decide) _)
    · exact placed_carries _ (by decide) _
  · rename_i hx
    split
    · exact .of_none (by simp only [enterHoming, onRun, onGen_ctl, onCtl_ctl, onGuard_ctl, onMeas_ctl]; exact setAxis_ctx_none hx)
    · exact .of_none hx

/-- A release keeps a cue unless it is for a homing move (R8). -/
theorem placed_beginRelease {r : StartRequest} (h : r ≠ .home ∨ s.ctl.ctx = none) : ContextLawful (beginRelease r s) := by
  have h1 : ContextLawful ((setAxis .releasing (retake s)).onSeq fun q =>
      { q with startReq := r, brake := some (setAxis .releasing (retake s)).store.live.brakeTime }) := by
    rcases h with h | h
    · intro x _; simp [contextPlaced, h]
    · exact .of_none (setAxis_ctx_none (by simpa))
  unfold beginRelease; dsimp only; split
  · exact placed_completeRelease _
  · exact h1.foldl (fun _ c hu => placed_recoverOccurrence c hu) _

@[simp] theorem seeReady_ctl (s : State) : (seeReady s).ctl = s.ctl := by unfold seeReady; split <;> rfl

theorem placed_completeWake (h : ContextLawful s) (ha : s.seq.axis = .waking) : ContextLawful (completeWake s) := by
  have hn (hr : s.seq.startReq = .none ∨ s.seq.startReq = .home) : s.ctl.ctx = none :=
    h.none (fun p => by rcases hr with hr | hr <;> simp [contextPlaced, ha, hr])
  unfold completeWake; dsimp only; split
  · rename_i hr; exact .of_none (setAxis_ctx_none (by simpa using hn (.inl hr)))
  · exact placed_beginRelease (.inl (by decide))
  · rename_i hr; exact placed_beginRelease (.inr (setAxis_ctx_none (by simpa using hn (.inr hr))))
  · exact placed_carries _ (by decide) _

/-- A wake keeps a cue that it is for (R6, R7). -/
theorem placed_enterWaking {r : StartRequest} (h : r = .cue ∨ r = .recover ∨ s.ctl.ctx = none) :
    ContextLawful (enterWaking r s) := by
  have h1 : ContextLawful ((setAxis .waking s).onSeq fun q =>
      { q with startReq := r, wake := some (setAxis .waking s).store.live.wakeTimeout }) := by
    rcases h with rfl | rfl | h
    · intro x _; simp [contextPlaced]
    · intro x _; simp [contextPlaced]
    · exact .of_none (setAxis_ctx_none h)
  unfold enterWaking; dsimp only; split
  · exact placed_completeWake h1 (by simp)
  · exact h1

theorem placed_startCue {r : CueRecord} (ha : startAllowed s = true) : ContextLawful (startCue r s) := by
  simp only [startAllowed, Bool.and_eq_true, Bool.or_eq_true, decide_eq_true_eq] at ha
  unfold startCue; dsimp only; split
  · simp only [endInBand, recordEvent, onCtl_ctl, onGen_ctl, onLine_ctl]
    exact .of_none (by simp)
  · unfold requestStart; split
    · exact placed_enterWaking (.inl rfl)
    · rename_i hw; intro x _
      simp only [contextPlaced, onSeq_seq, hw]; rfl
    · exact placed_beginRelease (.inl (by decide))
    all_goals rename_i hx; exfalso; obtain ⟨-, (h | h) | h⟩ := ha <;> exact absurd (hx.symm.trans h) (by decide)

theorem placed_expireDelay (n : Nat) (h : ContextLawful s) : ContextLawful (expireDelay n s) := by
  unfold expireDelay; split
  · exact h
  · split
    · rename_i hr; exact placed_startCue (startRefusal_none hr).1
    · exact h

theorem placed_drainDelays (h : ContextLawful s) : ContextLawful (drainDelays s) := by
  unfold drainDelays
  refine h.foldl (fun u n hu => ?_) _
  unfold drainDelay; split
  · exact placed_expireDelay n hu
  · exact hu

theorem foldl_drainDelay_busy_ctx (l : List Nat) (hb : startAllowed s = false) :
    (l.foldl drainDelay s).ctl.ctx = s.ctl.ctx := by
  induction l generalizing s with
  | nil => rfl
  | cons n l ih =>
    have h1 : startAllowed (drainDelay s n) = false ∧ (drainDelay s n).ctl.ctx = s.ctl.ctx := by
      unfold drainDelay; split
      · unfold expireDelay; split
        · exact ⟨hb, rfl⟩
        · rw [startRefusal_of_busy _ hb]; exact ⟨hb, rfl⟩
      · exact ⟨hb, rfl⟩
    exact (ih h1.1).trans h1.2

/-- Where no start is allowed, delays that end leave the context as it is. -/
theorem drainDelays_ctx (hb : startAllowed s = false) : (drainDelays s).ctl.ctx = s.ctl.ctx :=
  foldl_drainDelay_busy_ctx _ hb

theorem endedThenDrained_ctx (o : CueOutcome)
    (h : s.seq.axis = .moving ∨ s.seq.axis = .held ∨ s.seq.axis = .stopping) :
    (drainDelays (endCue o s)).ctl.ctx = none := by
  rw [drainDelays_ctx (startAllowed_of_moving (by simpa using h)), endCue_ctx]

theorem placed_loseHoming (h : ContextLawful s) : ContextLawful (loseHoming s) := by
  unfold loseHoming; split
  · rename_i ha
    split
    · rename_i hr
      exact .of_none (by simpa using h.none fun p => by simp [contextPlaced, ha, hr])
    · exact h
  · rename_i ha
    split
    · rename_i hr
      exact placed_enterSetting (.inr (by simpa using h.none fun p => by simp [contextPlaced, ha, hr]))
    · exact h
  all_goals exact h

theorem placed_endControlledStop (ha : s.seq.axis = .stopping) :
    ContextLawful (endControlledStop s) := by
  unfold endControlledStop; split
  · exact placed_enterSetting (.inr ‹_›)
  · exact placed_enterSetting (.inr (endedThenDrained_ctx _ (.inr (.inr ha))))

theorem placed_endFastStop (h : ContextLawful s) (ha : s.seq.axis = .stopping) : ContextLawful (endFastStop s) := by
  unfold endFastStop; split
  · exact placed_enterSetting (.inl (by decide))
  · split
    · exact placed_enterSetting (.inr (by simpa))
    · rename_i x hx
      split
      · exact placed_enterSetting (.inr (endedThenDrained_ctx _ (.inr (.inr ha))))
      · rename_i hp
        have := h x hx
        simp only [contextPlaced, ha, Bool.or_eq_true, decide_eq_true_eq] at this
        exact placed_enterSetting (.inl (this.resolve_right hp))

theorem placed_arrive (h : s.seq.axis = .moving ∨ s.seq.axis = .held ∨ s.seq.axis = .stopping) :
    ContextLawful (arrive s) := placed_enterSetting (.inr (endedThenDrained_ctx _ h))

theorem placed_refuseRecovery (h : ContextLawful s) : ContextLawful (refuseRecovery s) := by
  unfold refuseRecovery; split
  · exact placed_controlledEnd _ h
  · split
    · exact placed_controlledEnd _ h
    · exact placed_fastLatch _ (ContextLawful.foldl (s := s) (op := fun t d => latch d t) (fun _ _ hu => hu) _ h)

/-! ## Commands -/

theorem placed_arming (cue window : Nat) (h : ContextLawful s) : ContextLawful (arming cue window s) := by
  unfold arming; split
  · exact h
  · exact h
  · split
    · exact h
    · split
      · exact h
      · unfold takeArming; dsimp only; split
        · rename_i ha
          exact placed_enterWaking (.inr (.inr (h.none fun p => by
            have ha' : s.seq.axis = .rest := ha
            simp [contextPlaced, ha'])))
        · exact h

theorem placed_goCue (r : CueRecord) (h : ContextLawful s) : ContextLawful (goCue r s) := by
  unfold goCue; split
  · exact h
  · split
    · exact h
    · rename_i hr; exact placed_drainDelays (placed_startCue (startRefusal_none hr).1)

theorem placed_clearAct (h : ContextLawful s) : ContextLawful (clearAct s) := by
  unfold clearAct; split
  · exact h
  · dsimp only; split
    · rename_i ha
      have hn : s.ctl.ctx = none := h.none fun p => by
        have ha' : s.seq.axis = .tripped := ha
        simp [contextPlaced, ha']
      split
      · exact .of_none (setAxis_ctx_none hn)
      · split
        · exact .of_none (by simpa [dropAbsent] using hn)
        · exact .of_none (by simpa [dropAbsent] using hn)
    · exact h

theorem placed_acceptHome (h : Hdr) (hr : homeRefusal s = none) : ContextLawful (acceptHome h s) := by
  have hi : homeIdle s = true := by
    unfold homeRefusal at hr; split at hr
    · cases hr
    · simp_all
  simp only [homeIdle, Bool.and_eq_true, Option.isNone_iff_eq_none] at hi
  obtain ⟨⟨ha, hc⟩, -⟩ := hi
  unfold acceptHome requestStart; dsimp only; split
  · exact placed_enterWaking (.inr (.inr hc))
  · exact .of_none hc
  · exact placed_beginRelease (.inr hc)
  all_goals exact .of_none hc

theorem placed_lineResetCues (h : ContextLawful s) : ContextLawful (lineResetCues s) := by
  have h1 : ContextLawful (disarmAll .lineReset (controlledEnd .lineReset s)) :=
    (placed_controlledEnd .lineReset h).of_eq (disarmAll_ctx _ _) (disarmAll_seq _ _)
  exact placed_loseHoming (s := (disarmAll .lineReset (controlledEnd .lineReset s)).onCtl _) h1

theorem placed_passHoldLimit (h : ContextLawful s) : ContextLawful (passHoldLimit s) := by
  unfold passHoldLimit; split
  · exact placed_controlledEnd _ h
  · exact placed_controlledEnd _ h
  · exact placed_controlledEnd _ h
  · exact placed_refuseRecovery h
  · split
    · exact placed_controlledEnd _ h
    · split
      · exact placed_refuseRecovery h
      · exact h
  all_goals exact h

theorem placed_noteUpdate (n : Nat) (c : PeerContents) (h : ContextLawful s) : ContextLawful (noteUpdate n c s) := by
  unfold noteUpdate; split
  · exact h
  · exact placed_groupTest n (h.from (.onCtx fun _ => .inl rfl) rfl)

theorem placed_takeStatus (n : Nat) (c : PeerContents) (h : ContextLawful s) : ContextLawful (takeStatus n c s) := by
  unfold takeStatus; split
  · exact placed_noteUpdate n c (s := s.onPeers _) h
  · exact h

theorem placed_noteLoss (n : Nat) (h : ContextLawful s) : ContextLawful (noteLoss s n) := by
  unfold noteLoss; split
  · exact h
  · split
    · exact h
    · split
      · exact h
      · exact placed_controlledEnd _ h

theorem placed_takeReady (h : ContextLawful s) : ContextLawful (takeReady s) := by
  unfold takeReady; split
  · rename_i ha; exact placed_completeWake h ha
  · exact h.of_eq (by simp) (by simp)

theorem placed_loseReady (h : ContextLawful s) : ContextLawful (loseReady s) := by
  unfold loseReady; split
  · exact placed_evaluate .driveReady true h
  · exact h

theorem placed_evaluateLevel (c : Condition) (d : Bool) (h : ContextLawful s) : ContextLawful (evaluateLevel c d s) := by
  unfold evaluateLevel; split
  · exact placed_evaluate c d h
  · exact h

theorem placed_takeReleased (h : ContextLawful s) : ContextLawful (takeReleased s) := by
  unfold takeReleased; split
  · exact placed_completeRelease s
  · exact h

theorem placed_takeSet (h : ContextLawful s) : ContextLawful (takeSet s) := by
  have h1 : ContextLawful (markAbsent .brakeSet s) := h
  unfold takeSet; dsimp only; split
  · rename_i ha
    refine placed_confirmSet ?_
    by_cases hd : (markAbsent .brakeSet s).seq.dest = .parked
    · exact .inr (h1.none fun p => by simp [contextPlaced, ha, hd])
    · exact .inl hd
  · exact h1

theorem placed_judgeLoad (h : ContextLawful s) : ContextLawful (judgeLoad s) := by
  have hs {u : State} (hu : ContextLawful u) : ContextLawful (judgeSlack u) := by
    unfold judgeSlack; split
    · split
      · dsimp only; split
        · exact placed_controlledEnd _ (s := markPresent .slack u) hu
        · split
          · exact hu
          · exact placed_respond _ (s := markPresent .slack u) hu
      · exact hu
    · exact hu
  exact placed_evaluate _ _ (hs (placed_evaluate _ _ h))

/-! ## The period -/

@[simp] theorem generate_ctl (s : State) : (generate s).1.ctl = s.ctl := by rw [(generate_gen s).1]; rfl
@[simp] theorem generate_seq (s : State) : (generate s).1.seq = s.seq := by rw [(generate_gen s).1]; rfl

@[simp] theorem updateProgress_ctl (s : State) : (updateProgress s).ctl = s.ctl := by
  unfold updateProgress; split
  · rfl
  · split
    · rfl
    · split <;> rfl

@[simp] theorem updateProgress_seq (s : State) : (updateProgress s).seq = s.seq := by
  unfold updateProgress; split
  · rfl
  · split
    · rfl
    · split <;> rfl

@[simp] theorem runGenerator_ctl (s : State) : (runGenerator s).1.ctl = s.ctl := by simp [runGenerator, writeDuty, publish]
@[simp] theorem runGenerator_seq (s : State) : (runGenerator s).1.seq = s.seq := by simp [runGenerator, writeDuty, publish]

theorem placed_beforeGenerator (h : ContextLawful s) : ContextLawful (beforeGenerator s) := by
  have h1 : ContextLawful (applyReference s) := by unfold applyReference; split <;> exact h
  have h2 (b : Bool) {u : State} (hu : ContextLawful u) : ContextLawful (homingAbort b u) := by
    unfold homingAbort; split <;> exact hu
  have h3 {u : State} (hu : ContextLawful u) : ContextLawful (couple u) := by
    unfold couple; split
    · exact hu.from (.onCtx fun _ => .inl rfl) rfl
    · exact hu
  exact h3 (h2 _ (u := guardCompute ((applyReference s).onMeas _)) h1)

theorem placed_respondIf (c : Condition) (d : Bool) (h : ContextLawful s) : ContextLawful (respondIf c d s) := by
  unfold respondIf; split
  · exact placed_respond c h
  · exact h

theorem placed_judgeMotion (h : ContextLawful s) : ContextLawful (judgeMotion s) := by
  have hp (c : Condition) (d : Bool) {u : State} (hu : ContextLawful u) : ContextLawful (setPresence c d u) := by
    unfold setPresence; split <;> exact hu
  have hl (d : Bool) {u : State} (hu : ContextLawful u) : ContextLawful (loseReference d u) := by
    unfold loseReference; split <;> exact hu
  have hf {u : State} (hu : ContextLawful u) : ContextLawful (judgeFollowing u) := by
    unfold judgeFollowing; split
    · exact placed_evaluate _ _ hu
    · exact hu
  rw [judgeMotion_eq]
  exact placed_respondIf _ _ (hf (placed_respondIf _ _ (hl _ (hp _ _ (hp _ _ h)))))

theorem placed_actOnRun (v : Nat) (arrived : Bool) (h : ContextLawful s) : ContextLawful (actOnRun v arrived s) := by
  unfold actOnRun; split
  · rename_i ha
    split
    · exact placed_arrive (.inl ha)
    · split
      · exact .of_carries (by simp [enterHeld]; rfl)
      · exact h
  · rename_i ha
    split
    · exact placed_arrive (.inr (.inl ha))
    · split
      · exact h
      · exact placed_carries _ (by decide) _
  · rename_i ha
    split
    · split
      · exact placed_endControlledStop ha
      · exact h
    · exact h
  all_goals exact h

theorem placed_actOnHoming (v : Nat) (ended : Bool) (h : ContextLawful s) : ContextLawful (actOnHoming v ended s) := by
  unfold actOnHoming; split
  · rename_i ha
    split
    · exact placed_fastLatch .homeMiss (s := latch .homeMiss (onRun _ (s.onMeas _))) h
    · split
      · exact placed_enterSetting (.inr (by simpa using h.none fun p => by simp [contextPlaced, ha]))
      · exact h
  · exact h

theorem placed_actOn (r : GenReport) (h : ContextLawful s) : ContextLawful (actOn r s) := by
  unfold actOn; split
  · exact h
  · exact placed_actOnRun _ _ h
  · unfold actOnFast; split
    · rename_i ha
      simp only [stoppingOf, Bool.and_eq_true, decide_eq_true_eq] at ha
      exact placed_endFastStop h ha.1.1
    · exact h
  · exact placed_actOnHoming _ _ h
  · split
    · exact placed_beginRelease (.inl (by decide))
    · exact h

/-! ## Every command -/

theorem placed_finish (h : ContextLawful s) : ContextLawful (finish s) := by
  intro x hx
  rw [finish_ctl] at hx
  rw [finish_seq]
  exact h x hx

theorem Requested.placed (h : Requested s t) (hs : ContextLawful s) : ContextLawful t :=
  hs.of_eq (congrArg (fun p => p.2.2.2.2.2.2.1.ctx) h.same) (congrArg (fun p => p.2.2.2.1) h.same)

theorem placed_frame (i : Instr) (s : State) (h : ContextLawful s) : Answers (handOn i s) ContextLawful := by
  cases i
  case statusFrame hd p =>
    refine .ite (fun _ => ?_) fun _ => .next h
    split
    · exact .next h
    · exact .next (placed_finish (placed_takeStatus _ _ h))
  case markFrame hd cue mark =>
    exact .ite (fun _ => .next (placed_finish (placed_drainDelays (s := takeMark _ _ _ s) h))) fun _ => .next h
  case standby hd cue set window =>
    exact .ite (fun _ => .next (placed_finish (placed_arming _ _ h))) fun _ => .next h
  case go hd cue =>
    refine .ite (fun _ => ?_) fun _ => .next h
    split
    · exact .next h
    · exact .next (placed_finish (placed_goCue _ h))
  case cancel hd cue set => exact .ite (fun _ => .next (placed_finish (s := disarm _ s cue) h)) fun _ => .next h
  case stop hd set => exact .ite (fun _ => .next (placed_finish (placed_controlledEnd _ h))) fun _ => .next h
  case enable hd set override count => exact .ite (fun _ => .next h) fun _ => .next h
  case clear hd set =>
    refine .ite (fun ht => .next (placed_finish (s := answer _ _ _ _ (clearAct s)) (placed_clearAct h))) fun _ => ?_
    exact .ite (fun _ => .next (placed_finish (placed_clearAct h))) fun _ => .next h
  case home hd =>
    refine .ite (fun ht => ?_) fun _ => .next h
    split
    · exact .next h
    · exact .next (placed_finish (placed_acceptHome hd ‹_›))
  case linereset hd set =>
    refine .ite (fun _ => .next (placed_finish ?_)) fun _ => .next h
    have h1 : ContextLawful (buildAnnounce .lineReset ((lineResetCues s).onPeers unhearClearance)) := by
      unfold buildAnnounce; split <;> exact placed_lineResetCues h
    exact h1
  case cueload hd req => exact (handOn_requested _ rfl s).imp fun _ hr => hr.placed h
  case cuedrop hd cue => exact (handOn_requested _ rfl s).imp fun _ hr => hr.placed h
  case cueask hd cue form => exact (handOn_requested _ rfl s).imp fun _ hr => hr.placed h
  case save hd => exact (handOn_requested _ rfl s).imp fun _ hr => hr.placed h
  case setup hd i v key => exact (handOn_requested _ rfl s).imp fun _ hr => hr.placed h
  all_goals exact .next h

theorem placed_powerOn (cause : ResetCause) (straps : BitVec 6) (hh : HeldLawful s) (hd : s.held.isSome = true) :
    ContextLawful (powerOnRun cause straps s) := by
  obtain ⟨-, -, -, hc, -⟩ := hh hd
  have h1 : ContextLawful (stateEntry straps.toNat s) := .of_none (by simp [stateEntry, hc, CueControl.reset])
  have h2 : ContextLawful (watchLevels (stateEntry straps.toNat s)) := by
    unfold watchLevels; split
    · exact placed_evaluate _ _ (placed_evaluate _ _ h1)
    · exact h1
  unfold powerOnRun buildAnnounce; split <;> exact placed_finish h2

theorem exec_placed (c : Instr) (s : State) (hh : HeldLawful s) (h : ContextLawful s) :
    Answers (exec c s) ContextLawful := by
  cases c
  case powerOn => exact .next (.of_none rfl)
  case supplyDip => exact .next (.of_none rfl)
  case resetPin => exact .next (.of_none rfl)
  case powerOnSequence straps =>
    simp only [exec, execPowerOnSequence]; split
    · exact .next h
    · exact .next (placed_powerOn _ _ hh (by simp [*]))
  case saveComplete => simp only [exec, execSaveComplete]; split <;> exact .next h
  case setupWriteComplete => exact (setupWriteComplete_requested s).imp fun _ hr => hr.placed h
  case frameDiscarded raw =>
    simp only [exec, execFrameDiscarded]; split
    · exact .next h
    · exact placed_frame _ s h
  case estopLoopOpen =>
    refine .ite (fun _ => .next (placed_finish ?_)) fun _ => .next h
    unfold openLoop; dsimp only; split
    · exact ContextLawful.of_eq (s := s) h (by simp; rfl) (by simp; rfl)
    · exact .of_none (enterTripped_ctx _ _)
  case estopLoopClosed => exact .next h
  case driveReadyAsserted => exact .next (placed_finish (placed_takeReady h))
  case driveReadyLost => exact .next (placed_finish (placed_loseReady h))
  case driveFaultAsserted => exact .next (placed_finish (placed_evaluateLevel _ _ h))
  case driveFaultDeasserted => exact .next (placed_finish (placed_evaluateLevel _ _ h))
  case ultimateOpen sw => exact .next (placed_finish (placed_evaluateLevel _ _ h))
  case ultimateClosed => exact .next (placed_finish (placed_evaluateLevel _ _ h))
  case brakeFbReleased => exact .next (placed_finish (placed_takeReleased h))
  case brakeFbSet => exact .next (placed_finish (placed_takeSet h))
  case homeSwEdge active => exact .ite (fun _ => .next h) fun _ => .next h
  case encoderStep step => exact .ite (fun _ => .next h) fun _ => .next h
  case profilePeriod =>
    refine .ite (fun _ => .next h) fun _ => .next (placed_finish (placed_actOn _ ?_))
    have hg {u : State} (hu : ContextLawful u) : ContextLawful (runGenerator u).1 := hu.of_eq (by simp) (by simp)
    split
    · exact placed_judgeMotion (hg (placed_beforeGenerator h))
    · exact hg h
  case pwmBoundary => exact .next h
  case loadConversionComplete raw =>
    exact .ite (fun _ => .next (placed_finish (placed_judgeLoad (s := s.onMeas _) h))) fun _ => .next h
  case peerAgeing =>
    refine .ite (fun _ => .next h) fun _ => .next (placed_finish ?_)
    exact ContextLawful.foldl (s := s.onPeers _) (fun _ n hu => placed_noteLoss n hu) _ h
  case wakeTimeout => exact .ite (fun _ => .next (placed_finish (placed_dropDemand _ (s := latch _ s) h))) fun _ => .next h
  case brakeReleaseTimeout =>
    exact .ite (fun _ => .next (placed_finish (.of_none (enterTripped_ctx _ _)))) fun _ => .next h
  case brakeSetTimeout =>
    exact .ite (fun _ => .next (placed_finish (.of_none (enterTripped_ctx _ _)))) fun _ => .next h
  case holdToBrakeExpiry =>
    exact .ite (fun _ => .next (placed_finish (placed_enterSetting (.inl (by decide))))) fun _ => .next h
  case restTimerExpiry =>
    refine .ite (fun hp => .next (placed_finish (.of_none (setAxis_ctx_none ?_)))) fun _ => .next h
    exact h.none fun p => by simp [contextPlaced, hp.1]
  case lapseTimerExpiry =>
    exact .ite (fun _ => .next (placed_finish (placed_loseHoming (s := s.onCtl _) h))) fun _ => .next h
  case windowExpiry cue => exact .ite (fun _ => .next (placed_finish (s := disarm _ s cue) h)) fun _ => .next h
  case followDelayExpiry cue => exact .ite (fun _ => .next (placed_finish (placed_expireDelay _ h))) fun _ => .next h
  case holdLimitExceeded => exact .ite (fun _ => .next (placed_finish (placed_passHoldLimit h))) fun _ => .next h
  case recoveryWaitExceeded => exact .ite (fun _ => .next (placed_finish (placed_refuseRecovery h))) fun _ => .next h
  case dwellExpiry =>
    refine .ite (fun _ => .next (placed_finish (placed_beginRelease (.inl ?_)))) fun _ => .next h
    unfold reReleaseRequest; split <;> decide
  case statusTimerExpiry =>
    exact .ite (fun _ => .next (h.of_eq (by simp) (by simp))) fun _ => .next h
  case transmitAttempt => exact .ite (fun _ => .next h) fun _ => .next h
  case frameSent => simp only [exec, execFrameSent]; split <;> exact .next h
  case attemptFailed => simp only [exec, execAttemptFailed]; split <;> exact .next h
  all_goals rw [← handOn_exec _ _ rfl]; exact placed_frame _ s h

theorem placed_passMs (h : ContextLawful s) : ContextLawful (passMs s) := by
  unfold passMs; split
  · exact h
  · intro y hy
    obtain ⟨x, hx, rfl⟩ := Option.map_eq_some_iff.1 (Option.mem_def.1 hy)
    have hp : (tickContext s.seq.axis x).phase = x.phase := by unfold tickContext; split <;> rfl
    rw [hp]
    exact h x hx

/-- Settles O10: operation by operation, with the context's phase and what the sequencer is about. -/
theorem stepKeepsContextPlaced : Obligations.StepKeepsContextPlaced := by
  intro s t hh hs h
  rcases step_from h with ⟨c, l, h⟩ | rfl
  · obtain ⟨u, hu, hl⟩ := exec_placed c { s with pending := l } hh hs
    rw [h] at hu; cases hu
    exact hl
  · exact placed_passMs hs

end placed

end Sys2Proof.Machine


/-! PROOFS. The arithmetic of the generator, of the speed reference and of the clearance guard. -/

namespace Sys2Proof.Machine

/-! ## Stopping distance (R28) -/

/-- Twice the braking sum after `k` of the steps that fit. -/
theorem two_mul_brakingSum {v x k : Nat} (h : k * x ≤ v) :
    (2 * brakingSum v x k : Int) = 2 * (k : Int) * v - x * k * (k + 1) := by
  induction k with
  | zero => simp [brakingSum]
  | succ k ih =>
    have hk : k * x ≤ v := le_trans (Nat.mul_le_mul_right x (Nat.le_succ k)) h
    have hs : ((v - (k + 1) * x : Nat) : Int) = v - ((k : Int) + 1) * x := by push_cast [Nat.cast_sub h]; ring
    have := ih hk
    simp only [brakingSum]
    push_cast [hs]
    linarith

theorem two_mul_stoppingDistance (v x : Nat) :
    (2 * stoppingDistance v x : Int) = 2 * ((v / x : Nat) : Int) * v - x * (v / x : Nat) * ((v / x : Nat) + 1) := by
  unfold stoppingDistance
  have hle : x * (v / x) ≤ v := Nat.mul_div_le v x
  generalize v / x = n at hle ⊢
  have heven : 2 ∣ x * n * (n + 1) := by
    rw [mul_assoc]; exact Dvd.dvd.mul_left (Nat.even_mul_succ_self n).two_dvd x
  obtain ⟨k, hk⟩ := heven
  have hdiv : x * n * (n + 1) / 2 = k := by omega
  have hkle : k ≤ n * v := by
    have h1 : x * n * (n + 1) ≤ v * (n + 1) := Nat.mul_le_mul_right _ hle
    rcases Nat.eq_zero_or_pos n with rfl | hn
    · simp at hk; omega
    · have h2 : v * (n + 1) ≤ 2 * (n * v) := by nlinarith
      omega
  have hk' : (x : Int) * n * (n + 1) = 2 * k := by exact_mod_cast hk
  dsimp only
  rw [hdiv]
  push_cast [Nat.cast_sub hkle]
  linarith

theorem stoppingDistance_eq_brakingSum (v x : Nat) : stoppingDistance v x = brakingSum v x (v / x) := by
  have h1 := two_mul_stoppingDistance v x
  have h2 := two_mul_brakingSum (v := v) (x := x) (Nat.div_mul_le_self v x)
  omega

theorem stoppingDistance_of_lt {v x : Nat} (h : v < x) : stoppingDistance v x = 0 := by
  simp [stoppingDistance, Nat.div_eq_of_lt h]

theorem stoppingDistance_step {v x : Nat} (hx : 0 < x) (h : x ≤ v) :
    stoppingDistance v x = (v - x) + stoppingDistance (v - x) x := by
  have h1 := two_mul_stoppingDistance v x
  have h2 := two_mul_stoppingDistance (v - x) x
  have hd : v / x = (v - x) / x + 1 := by
    conv_lhs => rw [← Nat.sub_add_cancel h]
    rw [Nat.add_div_right _ hx]
  rw [hd] at h1
  generalize (v - x) / x = m at h1 h2
  have hs : ((v - x : Nat) : Int) = v - x := Nat.cast_sub h
  rw [hs] at h2
  have : (stoppingDistance v x : Int) = ((v - x : Nat) : Int) + stoppingDistance (v - x) x := by
    rw [hs]; push_cast at h1; nlinarith
  exact_mod_cast this

/-- Settles O18: the closed form by induction on the steps of the sum. -/
theorem stoppingDistanceIsBrakingSum : Obligations.StoppingDistanceIsBrakingSum := by
  intro v x hx
  refine ⟨stoppingDistance_eq_brakingSum v x, two_mul_stoppingDistance v x, stoppingDistance_of_lt,
    stoppingDistance_step hx, fun hv h50 => Nat.div_le_of_le_mul ?_⟩
  nlinarith

/-! ## Candidates (R30, R31) -/

theorem feasible_iff (c d room : Nat) : feasible c d room = true ↔ c + stoppingDistance c d ≤ room := by
  simp [feasible]

/-- Settles O19: the list of candidates in each of the three places of v against its target. -/
theorem firstFeasibleCandidateChosen : Obligations.FirstFeasibleCandidateChosen := by
  intro v vt a d room
  dsimp only
  simp only [← feasible_iff, chooseVelocity, candidates]
  rcases lt_trichotomy v vt with h | h | h
  · simp only [h, h.le, not_lt.2 h.le, if_true, if_false, List.append_nil, List.nil_append, List.cons_append,
      List.find?_cons, List.find?_nil]
    cases feasible (min (v + a) vt) d room <;> cases feasible v d room <;> cases feasible (v - d) d room <;> simp
  · subst h
    simp only [lt_irrefl, le_refl, if_true, if_false, List.append_nil, List.nil_append, List.cons_append,
      List.find?_cons, List.find?_nil]
    cases feasible v d room <;> cases feasible (v - d) d room <;> simp
  · simp only [h, not_le.2 h, not_lt.2 h.le, if_true, if_false, List.append_nil, List.nil_append, List.cons_append,
      List.find?_cons, List.find?_nil]
    cases feasible (max (v - d) vt) d room <;> cases feasible (v - d) d room <;> simp

theorem mem_candidates {v vt a d c : Nat} (h : c ∈ candidates v vt a d) :
    c ≤ max v vt ∧ c ≤ v + a ∧ v - d ≤ c := by
  simp only [candidates, List.mem_append, List.mem_singleton] at h
  rcases h with ((h | h) | h) | h
  · split at h
    · rw [List.mem_singleton.1 h]; omega
    · cases h
  · split at h
    · rw [List.mem_singleton.1 h]; omega
    · cases h
  · split at h
    · rw [List.mem_singleton.1 h]; omega
    · cases h
  · omega

theorem chooseVelocity_mem (v vt a d room : Nat) : (chooseVelocity v vt a d room).1 ∈ candidates v vt a d := by
  unfold chooseVelocity; split
  · exact List.mem_of_find?_eq_some ‹_›
  · simp [candidates]

/-- The velocity chosen is feasible, and no OVERRUN arises, where the last candidate is feasible. -/
theorem chooseVelocity_feasible {v vt a d room : Nat} (h : feasible (v - d) d room = true) :
    (chooseVelocity v vt a d room).2 = false ∧ feasible (chooseVelocity v vt a d room).1 d room = true := by
  unfold chooseVelocity; split
  · rename_i c hc
    exact ⟨rfl, by simpa using List.find?_some hc⟩
  · rename_i hn
    rw [List.find?_eq_none] at hn
    exact absurd h (hn _ (by simp [candidates]))

/-- Braking by D from a velocity whose stopping distance fits leaves one that fits (R28, R31). -/
theorem feasible_braked {v d room : Nat} (hd : 0 < d) (h : stoppingDistance v d ≤ room) :
    feasible (v - d) d room = true := by
  rw [feasible_iff]
  rcases le_or_gt d v with hv | hv
  · rwa [← stoppingDistance_step hd hv]
  · rw [Nat.sub_eq_zero_of_le hv.le, stoppingDistance_of_lt hd]; omega

theorem runPeriod_overrun (v vt a d rt re : Nat) :
    (runPeriod v vt a d rt re).overrun = (chooseVelocity v vt a d (min rt re)).2 := by
  unfold runPeriod; dsimp only; split
  · rfl
  · split <;> rfl

/-- Settles O20. -/
theorem targetLimitedMoveNeverOverruns : Obligations.TargetLimitedMoveNeverOverruns := by
  intro v vt a d rt re hd hr hs
  have hmin : min rt re = rt := min_eq_left hr
  obtain ⟨hno, hfit⟩ := chooseVelocity_feasible (vt := vt) (a := a) (feasible_braked hd hs)
  rw [feasible_iff] at hfit
  refine ⟨by rw [runPeriod_overrun, hmin, hno], ?_⟩
  rcases runPeriod_cases (v := v) (vt := vt) (a := a) (d := d) (rt := rt) (re := re) rfl rfl with
    ⟨-, hstep, hv, -⟩ | ⟨-, hstep, hv, -⟩
  · rw [hv, stoppingDistance_of_lt hd]; exact Nat.zero_le _
  · rw [hv, hstep, hmin]; omega

/-- Settles O21. -/
theorem velocityStaysWithinLimit : Obligations.VelocityStaysWithinLimit := by
  intro v vt a d rt re vmax hv hvt
  obtain ⟨hc, hup, hdown⟩ := mem_candidates (chooseVelocity_mem v vt a d (min rt re))
  rcases runPeriod_cases (v := v) (vt := vt) (a := a) (d := d) (rt := rt) (re := re) rfl rfl with
    ⟨-, -, h0, harr⟩ | ⟨-, -, hp, -⟩
  · rw [h0, harr]; exact ⟨Nat.zero_le _, Nat.zero_le _, nofun⟩
  · rw [hp]; exact ⟨hc.trans (max_le hv hvt), hup, fun _ => hdown⟩

/-! ## Duty (R42, R43) -/

/-- Within full scale the duty is not clamped. -/
theorem tdiv_within {ref fs : Int} (hf : 0 < fs) (h : -fs ≤ ref ∧ ref ≤ fs) :
    -2047 ≤ Int.tdiv (ref * 2047) fs ∧ Int.tdiv (ref * 2047) fs ≤ 2047 := by
  have h1 := Int.tdiv_le_tdiv hf (show ref * 2047 ≤ fs * 2047 by omega)
  have h2 := Int.tdiv_le_tdiv hf (show -fs * 2047 ≤ ref * 2047 by omega)
  rw [Int.mul_tdiv_cancel_left _ hf.ne'] at h1
  rw [neg_mul, Int.neg_tdiv, Int.mul_tdiv_cancel_left _ hf.ne'] at h2
  exact ⟨h2, h1⟩

/-- Settles O25. -/
theorem dutySymmetricAboutZero : Obligations.DutySymmetricAboutZero := by
  intro live ref hf hr
  have hpos : (0 : Int) < live.fullScale := by exact_mod_cast hf
  have value {q : Int} (hq : -(live.fullScale : Int) ≤ q ∧ q ≤ live.fullScale) :
      (dutyOf live q : Int) = 2048 + Int.tdiv (q * 2047) live.fullScale := by
    have := tdiv_within hpos hq
    simp only [dutyOf, clampInt]; omega
  have h0 := value (q := 0) (by omega)
  have hp := value (q := live.fullScale) (by omega)
  have hm := value (q := -live.fullScale) (by omega)
  have h1 := value (q := ref) (by omega)
  have h2 := value (q := -ref) (by omega)
  have hb := dutyOf_range live ref
  rw [neg_mul, Int.neg_tdiv] at h2 hm
  rw [Int.mul_tdiv_cancel_left _ hpos.ne'] at hp hm
  rw [zero_mul, Int.zero_tdiv] at h0
  exact ⟨h1, hb.1, hb.2, by omega, by omega, by omega, by omega⟩

end Sys2Proof.Machine


/-! PROOFS. The clearance guard, and the distances recorded at an end. -/

namespace Sys2Proof.Machine

/-! ## The clearance guard (R111 to R115) -/

/-- Two closed intervals have a point in common exactly where neither lies beyond the other. -/
theorem intervals_meet {a b c d : Int} (h1 : a ≤ b) (h2 : c ≤ d) :
    (a ≤ d ∧ c ≤ b) ↔ ∃ y, (a ≤ y ∧ y ≤ b) ∧ c ≤ y ∧ y ≤ d := by
  constructor
  · rintro ⟨h3, h4⟩; exact ⟨max a c, by omega⟩
  · rintro ⟨y, h⟩; omega

theorem occupancy_unfresh (r : ClearanceRule) {p : Option Peer} (h : ∀ e, p = some e → e.fresh ≠ .fresh) :
    occupancy r p = (0, 40000000) := by
  unfold occupancy; split
  · rfl
  · split
    · rename_i hf _; exact absurd hf (h _ rfl)
    · rfl

theorem ruleActive_iff (ps : List Peer) (r : ClearanceRule) :
    ruleActive ps r = true ↔ (occupancy r (findPeer ps r.peer)).1 ≤ 1000 * r.peerHigh ∧
      1000 * (r.peerLow : Int) ≤ (occupancy r (findPeer ps r.peer)).2 := by
  simp only [ruleActive, Bool.and_eq_true, decide_eq_true_eq]
  push_cast
  constructor <;> rintro ⟨h1, h2⟩ <;> constructor <;> linarith

/-- Settles O26. -/
theorem unfreshPeerMakesRuleActive : Obligations.UnfreshPeerMakesRuleActive := by
  intro ps r
  refine ⟨fun hf => ?_, fun p c hp hf hc => ?_⟩
  · have ho := occupancy_unfresh r hf
    refine ⟨ho, fun _ _ => (ruleActive_iff ps r).2 ?_⟩
    rw [ho]; omega
  · have ho : occupancy r (findPeer ps r.peer) =
        (((min c.setPoint (min c.measured c.stopPoint) : Nat) : Int) - 1000 * r.margin,
          ((max c.setPoint (max c.measured c.stopPoint) : Nat) : Int) + 1000 * r.margin) := by
      simp only [occupancy, hp, hf, hc]
      push_cast
      rw [mul_comm]
    refine ⟨ho, fun hb => ?_⟩
    rw [ruleActive_iff, ho]
    exact intervals_meet (by omega) (by omega)

/-- The rule's widened own band lies above the set-point, or holds it from below (R114, R117). -/
def bandAbove (r : ClearanceRule) (s : Int) (target start : Option Int) : Bool :=
  decide (s < ownBandLow r) || heldFromBelow r s target start

/-- The rule's widened own band lies below the set-point, or holds it from above (R114, R117). -/
def bandBelow (r : ClearanceRule) (s : Int) (target start : Option Int) : Bool :=
  !bandAbove r s target start && (decide (ownBandHigh r < s) || heldFromAbove r s target start)

/-- The upper bound that an active rule sets, if it sets one (R114, R115). -/
def ceilingOf (r : ClearanceRule) (s : Int) (target start : Option Int) : Option Int :=
  if bandAbove r s target start then some (ownBandLow r)
  else if bandBelow r s target start then none
  else
    match target with
    | none => some s
    | some t => if ownBandLow r ≤ t ∧ ownBandHigh r < t then some t else some s

/-- The lower bound that an active rule sets, if it sets one (R114, R115). -/
def floorOf (r : ClearanceRule) (s : Int) (target start : Option Int) : Option Int :=
  if bandBelow r s target start then some (ownBandHigh r)
  else if bandAbove r s target start then none
  else
    match target with
    | none => some s
    | some t => if t < ownBandLow r then some t else some s

/-- The contribution of a rule is its two bounds. -/
theorem contribute_eq (r : ClearanceRule) (s : Int) (target start : Option Int) (env : Int × Int) :
    contribute r s target start env =
      ((floorOf r s target start).elim env.1 (max env.1 ·), (ceilingOf r s target start).elim env.2 (min env.2 ·)) := by
  by_cases ha : bandAbove r s target start = true
  · have hm : s < ownBandLow r ∨ heldFromBelow r s target start = true := by simpa [bandAbove] using ha
    simp [contribute, ceilingOf, floorOf, hm, ha, bandBelow]
  · have hm : ¬(s < ownBandLow r ∨ heldFromBelow r s target start = true) := by simpa [bandAbove] using ha
    by_cases hb : bandBelow r s target start = true
    · have hn : ownBandHigh r < s ∨ heldFromAbove r s target start = true := by simpa [bandBelow, ha] using hb
      simp only [contribute, hm, hn, if_false, if_true, ceilingOf, floorOf, ha, hb]
      rfl
    · have hn : ¬(ownBandHigh r < s ∨ heldFromAbove r s target start = true) := by simpa [bandBelow, ha] using hb
      simp only [contribute, hm, hn, if_false, ceilingOf, floorOf, ha, hb]
      cases target with
      | none => rfl
      | some t =>
        dsimp only
        by_cases h1 : t < ownBandLow r
        · simp [h1, not_le.2 h1]
        · by_cases h2 : ownBandHigh r < t <;> simp [h1, h2, not_lt.1 h1]

/-- A rule's bounds never pass the set-point. -/
theorem ceilingOf_ge {r : ClearanceRule} {s : Int} {target start : Option Int} {c : Int}
    (h : ceilingOf r s target start = some c) : s ≤ c := by
  unfold ceilingOf at h
  split at h
  · rename_i ha
    simp only [bandAbove, heldFromBelow, Bool.or_eq_true, Bool.and_eq_true, decide_eq_true_eq] at ha
    simp only [Option.some.injEq] at h
    rcases ha with ha | ha
    · omega
    · omega
  · rename_i ha
    split at h
    · cases h
    · rename_i hb
      have hle : s ≤ ownBandHigh r := by
        by_contra hc
        exact hb (by simp [bandBelow, ha, not_le.1 hc])
      split at h
      · simp_all
      · split at h <;> simp only [Option.some.injEq] at h <;> omega

theorem floorOf_le {r : ClearanceRule} {s : Int} {target start : Option Int} {c : Int}
    (h : floorOf r s target start = some c) : c ≤ s := by
  unfold floorOf at h
  split at h
  · rename_i hb
    simp only [bandBelow, heldFromAbove, Bool.or_eq_true, Bool.and_eq_true, decide_eq_true_eq] at hb
    simp only [Option.some.injEq] at h
    omega
  · split at h
    · cases h
    · rename_i ha
      have hle : ownBandLow r ≤ s := by
        by_contra hc
        exact ha (by simp [bandAbove, not_le.1 hc])
      split at h
      · simp_all
      · split at h <;> simp only [Option.some.injEq] at h <;> omega

section envelope
variable (ps : List Peer) (s : Int) (target start : Option Int)

/-- The envelope from an interval, rule by rule. -/
def envelopeFrom (env : Int × Int) (l : List ClearanceRule) : Int × Int :=
  l.foldl (fun env r => if ruleActive ps r then contribute r s target start env else env) env

theorem le_envelopeFrom_upper (env : Int × Int) (l : List ClearanceRule) (u : Int) :
    u ≤ (envelopeFrom ps s target start env l).2 ↔
      u ≤ env.2 ∧ ∀ r ∈ l, ruleActive ps r = true → ∀ b ∈ ceilingOf r s target start, u ≤ b := by
  induction l generalizing env with
  | nil => simp [envelopeFrom]
  | cons r l ih =>
    have he : envelopeFrom ps s target start env (r :: l) =
        envelopeFrom ps s target start (if ruleActive ps r then contribute r s target start env else env) l := rfl
    rw [he, ih, List.forall_mem_cons, ← and_assoc]
    refine and_congr_left' ?_
    by_cases ha : ruleActive ps r = true
    · rw [if_pos ha, contribute_eq]
      cases ceilingOf r s target start <;> simp [ha]
    · simp [ha]

theorem envelopeFrom_lower_le (env : Int × Int) (l : List ClearanceRule) (u : Int) :
    (envelopeFrom ps s target start env l).1 ≤ u ↔
      env.1 ≤ u ∧ ∀ r ∈ l, ruleActive ps r = true → ∀ b ∈ floorOf r s target start, b ≤ u := by
  induction l generalizing env with
  | nil => simp [envelopeFrom]
  | cons r l ih =>
    have he : envelopeFrom ps s target start env (r :: l) =
        envelopeFrom ps s target start (if ruleActive ps r then contribute r s target start env else env) l := rfl
    rw [he, ih, List.forall_mem_cons, ← and_assoc]
    refine and_congr_left' ?_
    by_cases ha : ruleActive ps r = true
    · rw [if_pos ha, contribute_eq]
      cases floorOf r s target start <;> simp [ha]
    · simp [ha]

end envelope

/-- Settles O27: each rule has a ceiling and a floor, and the set-point lies between them. -/
theorem envelopeContainsSetPoint : Obligations.EnvelopeContainsSetPoint := by
  intro live ps s target start
  have hup := le_envelopeFrom_upper ps s target start (softEnvelope live) (rulesInUse live)
  have hlow := envelopeFrom_lower_le ps s target start (softEnvelope live) (rulesInUse live)
  have h1 : (softEnvelope live).1 = (live.softLow : Int) * 1000000 := by simp [softEnvelope, mmToNm]
  have h2 : (softEnvelope live).2 = (live.softHigh : Int) * 1000000 := by simp [softEnvelope, mmToNm]
  rw [h1] at hlow
  rw [h2] at hup
  refine ⟨hup, hlow, fun hl hh => ⟨?_, (hlow s).2 ⟨hl, fun r _ _ b hb => floorOf_le hb⟩,
    (hup s).2 ⟨hh, fun r _ _ b hb => ceilingOf_ge hb⟩, ((hup _).1 le_rfl).1⟩⟩
  exact ((hlow _).1 le_rfl).1

/-! ## Distances of an end (R73) -/

theorem distance_eq_natAbs (a b : Nat) : distance a b = ((b : Int) - a).natAbs := by
  unfold distance; split <;> omega

/-- Settles O28. -/
theorem endDistancesMakeTotal : Obligations.EndDistancesMakeTotal := by
  intro s x m _ ht hd htot hw
  have hrest : (m.total : Int) - advance m.dir m.s0 s.gen.s.toNat = distance s.gen.s.toNat m.target := by
    rw [htot, distance_eq_natAbs, distance_eq_natAbs]
    cases hdir : m.dir with
    | up =>
      have hle : m.s0 < m.target := by
        by_contra hn; rw [hdir, moveDir, if_neg hn] at hd; cases hd
      simp only [MoveWithin, hdir] at hw
      simp only [advance]; omega
    | down =>
      have hle : ¬m.s0 < m.target := by
        intro hn; rw [hdir, moveDir, if_pos hn] at hd; cases hd
      simp only [MoveWithin, hdir] at hw
      simp only [advance]; omega
  rw [hrest]
  have : remainingMm s x = distance s.gen.s.toNat m.target / 1000000 := by simp [remainingMm, ht]
  omega

end Sys2Proof.Machine


/-! PROOFS. The power-on sequence. -/

namespace Sys2Proof.Machine

section powerOn
variable {s : State}

/-! ## The ANNOUNCE -/

/-- An ANNOUNCE is built into its slot and changes the port only. -/
theorem buildAnnounce_rest (c : AnnounceCause) (s : State) :
    let t := buildAnnounce c s
    base t = base s ∧ t.seq = s.seq ∧ t.gen = s.gen ∧ t.meas = s.meas ∧ t.ctl = s.ctl ∧ t.peers = s.peers ∧
      t.guard = s.guard ∧ t.sup = s.sup ∧ t.line.status = s.line.status := by
  unfold buildAnnounce; split <;> exact ⟨rfl, rfl, rfl, rfl, rfl, rfl, rfl, rfl, rfl⟩

theorem buildAnnounce_addressed (c : AnnounceCause) (h : addressed s = true) :
    (buildAnnounce c s).line.announce = some ⟨0, none, ⟨c, s.store.revision, s.table.length, s.store.cueState⟩⟩ := by
  simp [buildAnnounce, h]

theorem buildAnnounce_unaddressed (c : AnnounceCause) (h : addressed s = false) : buildAnnounce c s = s := by
  simp [buildAnnounce, h]

/-! ## Levels that are in order -/

theorem markAbsent_of_absent (c : Condition) (hp : c ∉ s.sup.present) (hr : s.sup.recovery = none) : markAbsent c s = s := by
  have h1 : removeCondition c s.sup.present = s.sup.present := by
    simp only [removeCondition, List.filter_eq_self, decide_eq_true_eq]
    exact fun d hd he => hp (he ▸ hd)
  have h2 : (s.onSup fun p => { p with present := removeCondition c p.present }) = s := by
    simp only [State.onSup, h1]
  unfold markAbsent
  rw [h2]
  exact dwellFollow_none s hr

theorem entryConditions_mem {own : Nat} {good loopOpen : Bool} {c : Condition}
    (h : c ∈ entryConditions own good loopOpen) : c = .setupBad ∨ c = .estop := by
  unfold entryConditions at h; split at h
  · cases h
  · simp only [conditionsWhere, List.mem_filter, Bool.or_eq_true, Bool.and_eq_true, decide_eq_true_eq] at h
    exact h.2.imp And.left And.left

theorem watchLevels_stateEntry (own : Nat) (hr : s.sup.recovery = none) (hu : s.inp.ultUpOpen = false)
    (hd : s.inp.ultDownOpen = false) (hf : s.inp.driveFault = false) :
    watchLevels (stateEntry own s) = stateEntry own s := by
  have hno (c : Condition) (h1 : c ≠ .setupBad) (h2 : c ≠ .estop) :
      markAbsent c (stateEntry own s) = stateEntry own s :=
    markAbsent_of_absent c (fun h => (entryConditions_mem h).elim h1 h2) hr
  have hi : (stateEntry own s).inp = s.inp := rfl
  unfold watchLevels; split
  · simp only [evaluate, hi, hu, hd, hf, Bool.or_self, Bool.false_eq_true, if_false]
    rw [hno _ (by decide) (by decide), hno _ (by decide) (by decide)]
  · rfl

/-! ## The clearance entries -/

theorem clearancePeers_new (l : List ClearanceRule) {ps : List Peer} (h : ∀ p ∈ ps, p = Peer.new p.station true) :
    ∀ p ∈ l.foldl (fun ps r => insertPeer (Peer.new r.peer true) ps) ps, p = Peer.new p.station true := by
  induction l generalizing ps with
  | nil => exact h
  | cons r l ih =>
    refine ih fun p hp => ?_
    have hins (qs : List Peer) (hq : ∀ p ∈ qs, p = Peer.new p.station true) :
        ∀ p ∈ insertPeer (Peer.new r.peer true) qs, p = Peer.new p.station true := by
      induction qs with
      | nil => simp [insertPeer, Peer.new]
      | cons q qs ihq =>
        obtain ⟨h1, h2⟩ := List.forall_mem_cons.1 hq
        unfold insertPeer; split
        · exact List.forall_mem_cons.2 ⟨rfl, hq⟩
        · split
          · exact hq
          · exact List.forall_mem_cons.2 ⟨h1, ihq h2⟩
    exact hins ps h p hp

/-! ## The stored cues -/

theorem insertRecord_last (r : CueRecord) {l : List CueRecord} (h : ∀ q ∈ l, q.cue.number < r.cue.number) :
    insertRecord r l = l ++ [r] := by
  induction l with
  | nil => rfl
  | cons q l ih =>
    obtain ⟨h1, h2⟩ := List.forall_mem_cons.1 h
    simp only [insertRecord, if_neg (not_lt.2 h1.le), if_neg h1.ne', ih h2, List.cons_append]

/-- Records in ascending order are taken as they stand. -/
theorem foldl_insertRecord_ascending {l l₀ : List CueRecord} (h : (numbers (l₀ ++ l)).Pairwise (· < ·)) :
    l.foldl (fun t r => insertRecord r t) l₀ = l₀ ++ l := by
  induction l generalizing l₀ with
  | nil => simp
  | cons r l ih =>
    have hlast : insertRecord r l₀ = l₀ ++ [r] := by
      refine insertRecord_last r fun q hq => ?_
      simp only [numbers, List.map_append, List.map_cons, List.pairwise_append] at h
      exact h.2.2 _ (List.mem_map_of_mem hq) _ (List.mem_cons_self ..)
    rw [List.foldl_cons, hlast, ih (by simpa using h)]
    simp

theorem loadedTable_of_good {live : Setup} {own : Nat} {nv : NvCues} (hg : nv.good = true) (h1 : 1 ≤ nv.count)
    (h2 : nv.count ≤ 200) (ho : (nv.stored.map (·.number)).Pairwise (· < ·)) :
    loadedTable live own nv = (nv.stored.filter (revalidated live own)).map takenRecord := by
  have hs : storeStateOf nv = .good := by
    simp [storeStateOf, hg, h2, Nat.one_le_iff_ne_zero.1 h1]
  have hn : numbers ((nv.stored.filter (revalidated live own)).map takenRecord) =
      (nv.stored.filter (revalidated live own)).map (·.number) := by
    simp [numbers, takenRecord, Function.comp_def]
  simp only [loadedTable, hs]
  rw [foldl_insertRecord_ascending, List.nil_append]
  rw [List.nil_append, hn]
  exact ho.sublist (List.filter_sublist.map _)

theorem revalidated_iff (live : Setup) (own : Nat) (c : CueDef) :
    revalidated live own c = true ↔
      (live.softLow ≤ c.target ∧ c.target ≤ live.softHigh) ∧
        (∀ m ∈ c.marks, live.softLow ≤ m ∧ m ≤ live.softHigh) ∧ (∀ g ∈ c.group, own ∈ g.members) ∧
        ∀ f ∈ c.follow, f.station ≠ own := by
  have hw (n : Nat) : withinSoft live (some (n : Int)) = true ↔ live.softLow ≤ n ∧ n ≤ live.softHigh := by
    simp [withinSoft]
  simp only [revalidated, Bool.and_eq_true, hw, List.all_eq_true, and_assoc]
  cases c.group <;> cases c.follow <;> simp

/-! ## The sequence -/

/-- The state in which the power-on sequence leaves a part whose levels are in order, but for the two frames. -/
theorem powerOnRun_eq (cause : ResetCause) (straps : BitVec 6) (hr : s.sup.recovery = none)
    (hu : s.inp.ultUpOpen = false) (hd : s.inp.ultDownOpen = false) (hf : s.inp.driveFault = false) :
    powerOnRun cause straps s = buildAnnounce (.reset cause) (finish (stateEntry straps.toNat s)) := by
  rw [powerOnRun, watchLevels_stateEntry _ hr hu hd hf]

theorem entryState_unaddressed {own : Nat} (good loopOpen : Bool) (h : own = 0 ∨ 48 ≤ own) :
    entryState own good loopOpen = .unaddressed ∧ entryConditions own good loopOpen = [] := by
  have ha : axisStation own = false := by simp only [axisStation, Bool.and_eq_false_iff, decide_eq_false_iff_not]; omega
  simp [entryState, entryConditions, ha]

theorem axisStation_of {own : Nat} (h1 : 1 ≤ own) (h2 : own ≤ 47) : axisStation own = true := by
  simp [axisStation, h1, h2]

theorem entry_bad {own : Nat} (loopOpen : Bool) (ha : axisStation own = true) :
    entryState own false loopOpen = .tripped ∧
      entryConditions own false loopOpen = if loopOpen then [.estop, .setupBad] else [.setupBad] := by
  simp only [entryState, entryConditions, ha]
  cases loopOpen <;> decide

theorem entry_open {own : Nat} (ha : axisStation own = true) :
    entryState own true true = .tripped ∧ entryConditions own true true = [.estop] := by
  simp only [entryState, entryConditions, ha]
  decide

theorem entry_good {own : Nat} (ha : axisStation own = true) :
    entryState own true false = .rest ∧ entryConditions own true false = [] := by
  simp only [entryState, entryConditions, ha]
  decide

/-- At the state entry the drive is off (R3). -/
theorem stateEntry_driveEn (own : Nat) (s : State) : driveEn (stateEntry own s) = false := by
  have hl : isLatched (stateEntry own s) .brakeSet = false := by
    rw [← Bool.not_eq_true]
    intro h
    rcases entryConditions_mem (List.contains_iff_mem.1 h) with h | h <;> cases h
  have ha : (stateEntry own s).seq.axis = .unaddressed ∨ (stateEntry own s).seq.axis = .rest ∨
      (stateEntry own s).seq.axis = .tripped := by
    change entryState _ _ _ = _ ∨ entryState _ _ _ = _ ∨ entryState _ _ _ = _
    unfold entryState; split
    · exact .inl rfl
    · split
      · exact .inr (.inl rfl)
      · exact .inr (.inr rfl)
  rcases ha with ha | ha | ha <;> simp [driveEn, ha, trippedHolding, hl]

theorem stateEntry_meas (own : Nat) (hm : s.meas = Measure.reset) : (stateEntry own s).meas = s.meas := by
  have : measuredOf (liveSetup own s.store.nvSetup) s.meas.offset s.meas.count = s.meas.measured := by
    rw [hm]
    have h0 : BitVec.toInt (0 : BitVec 32) = 0 := by decide
    simp only [measuredOf, Measure.reset, h0, zero_mul]
    decide
  simp [stateEntry, this]

theorem stateEntry_peers_of_good {own : Nat} (hg : setupGood own s.store.nvSetup = true) (ha : axisStation own = true) :
    (stateEntry own s).peers = clearancePeers (stateEntry own s).store.live := by
  simp [stateEntry, hg, ha]

/-- Settles O6: the state entry, then the STATUS of `finish` and the ANNOUNCE. -/
theorem powerOnSequenceEntersState : Obligations.PowerOnSequenceEntersState := by
  intro s cause straps hheld hl hu hd hf
  obtain ⟨hq, -, hm, hc, -, -, -, hv, hline, -⟩ := hl (by simp [hheld])
  have hexec : exec (.powerOnSequence straps) s =
      .next (buildAnnounce (.reset cause) (finish (stateEntry straps.toNat s))) := by
    simp only [exec, execPowerOnSequence, hheld]
    rw [powerOnRun_eq cause straps (by rw [hv]; rfl) hu hd hf]
  refine ⟨_, hexec, ?_⟩
  generalize straps.toNat = own at *
  have haddr : addressed (stateEntry own s) = axisStation own := rfl
  obtain ⟨hb, hseq, -, hmeas, hctl, hpeers, hguard, hsup, hstatus⟩ :=
    buildAnnounce_rest (.reset cause) (finish (stateEntry own s))
  obtain ⟨hpend, hh, hst, -, hi, htab, hstore, -⟩ := (base_eq_iff _ _).1 hb
  have hann (ha : axisStation own = true) := buildAnnounce_addressed (.reset cause) (s := finish (stateEntry own s))
    (by rw [addressed_finish, haddr, ha])
  have hrep (ha : axisStation own = true) : Reported (finish (stateEntry own s)) :=
    reported_finish (Nat.succ_ne_zero _) (by rw [haddr, ha])
  generalize ht : buildAnnounce (.reset cause) (finish (stateEntry own s)) = t at *
  simp only [finish_seq, finish_meas, finish_ctl, finish_peers, finish_guard, finish_sup, finish_held, finish_station,
    finish_inp, finish_table, finish_store] at hseq hmeas hctl hpeers hguard hsup hh hst hi htab hstore
  have haxis : t.seq.axis = entryState own (setupGood own s.store.nvSetup) s.inp.loopOpen := by rw [hseq]; rfl
  have hlatched : t.sup.latched = entryConditions own (setupGood own s.store.nvSetup) s.inp.loopOpen := by rw [hsup]; rfl
  have hdrive : driveEn t = false := by
    rw [← stateEntry_driveEn own s]
    exact driveEn_congr (by rw [hi]) (by rw [hseq]; rfl) (.inl (by rw [hsup]))
  refine ⟨hh, hst, by rw [hseq]; rfl, hdrive, fun hn => ?_, fun h1 h2 => ?_, by rw [hstore]; rfl, by rw [hstore]; rfl,
    fun hg => ?_, fun hg h0 => ?_, fun hg h200 => ?_, fun hg h1 h2 => ?_, revalidated_iff _ _, by rw [hguard, hstore]; rfl,
    hmeas.trans (stateEntry_meas own hm), hi, by rw [hstore]; rfl, by rw [hstore]; rfl, hpend.trans (finish_pending _), hctl⟩
  · obtain ⟨h1, h2⟩ := entryState_unaddressed (setupGood own s.store.nvSetup) s.inp.loopOpen hn
    have hno : axisStation own = false := by
      simp only [axisStation, Bool.and_eq_false_iff, decide_eq_false_iff_not]; omega
    refine ⟨haxis.trans h1, hlatched.trans h2, ?_, ?_⟩
    · rw [← ht, buildAnnounce_unaddressed _ (by rw [addressed_finish, haddr, hno]), finish_announce]
      simp [stateEntry, noteChange, hline, LinePort.reset]
    · rw [hpeers]; simp [stateEntry, hno]
  · have ha := axisStation_of h1 h2
    refine ⟨fun hg => ?_, fun hg ho => ?_, fun hg ho => ?_, fun hg => ?_, ?_, ?_⟩
    · have hg' : setupGood own s.store.nvSetup = false := hg
      obtain ⟨h3, h4⟩ := entry_bad s.inp.loopOpen ha
      rw [hg'] at haxis hlatched
      exact ⟨haxis.trans h3, by rw [hpeers]; simp [stateEntry, hg'], hlatched.trans h4⟩
    · have hg' : setupGood own s.store.nvSetup = true := hg
      rw [hg', ho] at haxis hlatched
      exact ⟨haxis.trans (entry_open ha).1, hlatched.trans (entry_open ha).2⟩
    · have hg' : setupGood own s.store.nvSetup = true := hg
      rw [hg', ho] at haxis hlatched
      exact ⟨haxis.trans (entry_good ha).1, hlatched.trans (entry_good ha).2⟩
    · rw [hpeers, hstore, stateEntry_peers_of_good hg ha]
      refine ⟨clearancePeers_new _ (by simp), stations_clearance_sorted _ List.Pairwise.nil, fun n => ?_⟩
      have := mem_stations_clearance (rulesInUse (stateEntry own s).store.live) [] n
      simpa [stations, clearancePeers] using this
    · refine ⟨_, hann ha, rfl, ?_, ?_, ?_⟩
      · rw [finish_store, hstore]
      · rw [finish_table, htab]
      · rw [finish_store, hstore]
    · obtain ⟨⟨q, hq1, hq2⟩, -⟩ := hrep ha
      exact ⟨q, hstatus.trans hq1, by rw [hq2, hseq, finish_seq]⟩
  · rw [hstore, htab]
    simp [stateEntry, storeStateOf, loadedTable, hg]
  · rw [hstore, htab]
    simp [stateEntry, storeStateOf, loadedTable, hg, h0]
  · rw [hstore, htab]
    simp [stateEntry, storeStateOf, loadedTable, hg, not_le.2 h200]
  · rw [hstore, htab]
    refine ⟨?_, fun ho => loadedTable_of_good hg h1 h2 ho⟩
    simp [stateEntry, storeStateOf, hg, h2, Nat.one_le_iff_ne_zero.1 h1]

end powerOn

end Sys2Proof.Machine


/-! PROOFS. The calls of cue control: arming, cancelling, enable, refusals, and starts in WAKING. -/

namespace Sys2Proof.Machine

section calls
variable {s u : State}

/-! ## Ends of commands that owe no STATUS -/

/-- With no STATUS owed, the end of a command settles the rest timer only. -/
theorem finish_of_due (h : u.line.statusDue = 0) : finish u = restFollow u := by
  have hr : (restFollow u).line.statusDue = 0 := h
  rw [finish, statusIfDue, hr, Function.iterate_zero, id]
  simp only [State.onLine]
  rw [← hr]

theorem restFollow_busy (h : restConditions u = false) : restFollow u = u.onSeq fun q => { q with rest := none } := by
  simp [restFollow, h]

/-- On a settled axis that meets the rest conditions not, the rest timer is stopped (R5). -/
theorem settled_rest (hs : Settled s) (h : restConditions s = false) : s.seq.rest = none := by
  have := ((settled_iff s).1 hs).2
  rwa [restFollow_rest, h, if_neg (by decide), eq_comm] at this

/-- A command that leaves the axis off the rest conditions, with the timer stopped, ends where it stands. -/
theorem finish_busy (hd : u.line.statusDue = 0) (hc : restConditions u = false) (hr : u.seq.rest = none) :
    finish u = u :=
  finish_settled ((settled_iff u).2 ⟨hd, by rw [restFollow_rest, hc, hr]; rfl⟩)

/-- With the loop closed, DRIVE_EN is asserted in the states of the table of 1.1 that have it (R2). -/
theorem driveEn_of_axis (hl : s.inp.loopOpen = false) (h : s.seq.axis ≠ .unaddressed) (hr : s.seq.axis ≠ .rest)
    (ht : s.seq.axis ≠ .tripped) : driveEn s = true := by
  unfold driveEn
  rw [hl]
  cases ha : s.seq.axis <;> simp_all

/-! ## STANDBY -/

theorem exec_standby {h : Hdr} {set : StationSet} (cue window : Nat) (ht : setFrameTaken s h set = true) :
    exec (.standby h cue set window) s = .next (finish (arming cue window s)) := if_pos ht

/-- A recorded event ends a command where it stands. -/
theorem finish_recordEvent (hs : Settled s) (e : CueEvent) : finish (recordEvent e s) = recordEvent e s :=
  finish_of hs rfl rfl rfl rfl rfl

/-- Settles O33: `earlyRefusal` and `lateRefusal` test by test. -/
theorem standbyRefusedInOrder : Obligations.StandbyRefusedInOrder := by
  intro s h cue window set hs ht
  dsimp only
  rw [exec_standby cue window ht]
  have hrefuse {reason : RefuseReason} (ha : arming cue window s = recordEvent (.refused cue reason) s) :
      (Host.Outcome.next (finish (arming cue window s)) : Host.Outcome State Fault Refusal) =
        .next (recordEvent (.refused cue reason) s) := by
    rw [ha, finish_recordEvent hs]
  refine ⟨fun ha => hrefuse ?_, fun ha hn => hrefuse ?_, fun r ha hr => ⟨fun hrun => hrefuse ?_, fun hrun =>
    ⟨fun hm => hrefuse ?_, fun hm => ⟨fun harm => ?_, fun harm => ⟨fun hfull => hrefuse ?_, fun hroom hfit => hrefuse ?_⟩⟩⟩⟩⟩
  · simp [arming, earlyRefusal, ha]
  · simp [arming, earlyRefusal, ha, hn]
  · simp [arming, earlyRefusal, ha, hr, hrun]
  · simp [arming, earlyRefusal, ha, hr, hrun, hm]
  · have he : arming cue window s = restartWindow cue window s := by simp [arming, earlyRefusal, ha, hr, hrun, hm, harm]
    rw [he, finish_of (t := restartWindow cue window s) hs rfl rfl (by simp [restartWindow]) rfl rfl]
  · simp [arming, earlyRefusal, ha, hr, hrun, hm, harm, lateRefusal, hfull]
  · simp [arming, earlyRefusal, ha, hr, hrun, hm, harm, lateRefusal, not_le.2 hroom, hfit]

/-- Settles O32. -/
theorem standbyArmsCue : Obligations.StandbyArmsCue := by
  intro s h cue window set r hs ht hr htrip hrun hm harm hroom hfit
  rw [exec_standby cue window ht]
  have harming : arming cue window s = takeArming r window s := by
    simp [arming, earlyRefusal, htrip, hr, hrun, hm, harm, lateRefusal, not_le.2 hroom, hfit]
  have hcue : r.cue.number = cue := (findCue_some hr).2
  refine ⟨fun hrest => ?_, fun hrest hready hloop => ?_⟩
  · have he : arming cue window s =
        ((s.onCtl fun c => { c with armed := c.armed ++ [armedEntry r window], lastEvent := some (.armed cue) }).onPeers
          (joinPeers s.station r.cue)) := by
      rw [harming]
      simp only [takeArming, hcue, onPeers_seq, onCtl_seq, hrest, if_false]
      rfl
    rw [he, finish_of_due (by exact hs.1), restFollow_busy (by simp [restConditions])]
  · have he : arming cue window s = recordEvent (.armed cue) ((setAxis .waking
        ((s.onCtl fun c => { c with armed := c.armed ++ [armedEntry r window] }).onPeers
          (joinPeers s.station r.cue))).onSeq fun q =>
            { q with startReq := .none, wake := some s.store.live.wakeTimeout }) := by
      rw [harming]
      simp [takeArming, hcue, hrest, enterWaking, hready]
    rw [he]
    simp only [answers_next]
    refine ⟨by simp, by simp, by simp, ?_, ?_, by simp [recordEvent], by simp [recordEvent], by simp, ?_, ?_⟩
    · rw [finish_driveEn]
      exact driveEn_of_axis (by simpa [recordEvent]) (by simp) (by simp) (by simp)
    · simp [brakeRel, brakeRelIn]
    · simp only [finish_still, recordEvent_still, onSeq_still, setAxis_still, onPeers_still]
      rfl
    · simp [recordEvent]

/-! ## CANCEL and the end of a window -/

/-- Settles O34. -/
theorem cancelAndWindowDisarm : Obligations.CancelAndWindowDisarm := by
  intro s c cue reason hs hc
  have harmed : isArmed s cue = true ∧ exec c s = .next (finish (disarm reason s cue)) := by
    rcases hc with ⟨h, set, rfl, ht, ha, rfl⟩ | ⟨rfl, hw, rfl⟩
    · exact ⟨ha, if_pos (by simp [ht, ha])⟩
    · refine ⟨?_, if_pos hw⟩
      simp only [windowRuns, List.any_eq_true, Bool.and_eq_true, decide_eq_true_eq] at hw
      obtain ⟨a, ha, hn, -⟩ := hw
      simp only [isArmed, List.any_eq_true, decide_eq_true_eq]
      exact ⟨a, ha, hn⟩
  obtain ⟨ha, he⟩ := harmed
  have hbusy : restConditions s = false := by
    have : s.ctl.armed ≠ [] := by
      intro hn; simp [isArmed, hn] at ha
    simp [restConditions, this]
  rw [he, finish_of_due (u := disarm reason s cue) hs.1]
  refine ⟨_, rfl, rfl, rfl, rfl, fun hp hn hx hz => ?_, by simp, rfl, rfl, rfl, rfl, rfl⟩
  rw [restFollow_rest]
  have hcond : restConditions (disarm reason s cue) = true := by
    have hn' : (disarm reason s cue).ctl.armed = [] := hn
    have hp' : (disarm reason s cue).seq.axis = .parked := hp
    have hx' : (disarm reason s cue).ctl.ctx = none := hx
    rw [restConditions, hn', hp', hx']
    rfl
  rw [if_pos hcond]
  have hz' : ¬(disarm reason s cue).store.live.restCount = 0 := hz
  rw [if_neg hz']
  change some (s.seq.rest.getD _) = _
  rw [settled_rest hs hbusy]
  rfl

/-! ## ENABLE and its lapse -/

theorem loseHoming_idle (hr : s.seq.startReq ≠ .home) (hh : s.seq.axis ≠ .homing) (ht : s.seq.axis ≠ .stopping) :
    loseHoming s = s := by
  unfold loseHoming; split <;> simp_all

/-- Settles O35. -/
theorem enableTakenAndLapses : Obligations.EnableTakenAndLapses := by
  intro s h set override count
  refine ⟨fun ht => if_pos ht, fun ht => if_neg (by simp [ht]), fun hs hl hr hh ht => ?_, fun hs hl hh => ?_⟩
  · have he : exec .lapseTimerExpiry s = .next (finish (loseEnable s)) := if_pos hl
    rw [he, loseEnable, loseHoming_idle (s := s.onCtl _) hr hh ht]
    exact congrArg _ (finish_of hs rfl rfl rfl rfl rfl)
  · have he : exec .lapseTimerExpiry s = .next (finish (loseEnable s)) := if_pos hl
    have hx : (s.onCtl fun c => { c with enableFresh := false, lapse := none }).seq.axis = .homing := hh
    rw [he, loseEnable, loseHoming]
    simp only [hx]
    exact congrArg _ (finish_of hs rfl rfl rfl rfl rfl)

/-! ## GO and the end of a follow delay -/

theorem exec_go {h : Hdr} {cue : Nat} {r : CueRecord} (ht : consoleFrameTaken s h = true) (hr : findCue s.table cue = some r)
    (hrun : isRunning s cue = false) : exec (.go h cue) s = .next (finish (goCue r s)) := by
  simp [exec, execGo, ht, hrun, hr]

theorem exec_followDelay {cue : Nat} (h : delayRuns s cue = true) :
    exec (.followDelayExpiry cue) s = .next (finish (expireDelay cue s)) := if_pos h

/-- Settles O38. -/
theorem startRefusedInOrder : Obligations.StartRefusedInOrder := by
  intro s h cue r hs ht hr hrun
  have hcue : r.cue.number = cue := (findCue_some hr).2
  dsimp only
  rw [exec_go ht hr hrun]
  have hboth {reason : RefuseReason} (ha : isArmed s cue = true) (hn : startRefusal s r = some reason) :
      (Host.Outcome.next (finish (goCue r s)) : Host.Outcome State Fault Refusal) =
          .next (recordEvent (.refused cue reason) s) ∧
        (delayRuns s cue = true → exec (.followDelayExpiry cue) s =
          .next (recordEvent (.refused cue reason) (setTrigger cue .waiting s))) := by
    refine ⟨?_, fun hd => ?_⟩
    · have : goCue r s = recordEvent (.refused cue reason) s := by simp [goCue, hcue, ha, hn]
      rw [this, finish_recordEvent hs]
    · have : expireDelay cue s = recordEvent (.refused cue reason) (setTrigger cue .waiting s) := by
        simp [expireDelay, hr, hn]
      rw [exec_followDelay hd, this]
      exact congrArg _ (finish_of hs rfl rfl (by simp [setTrigger, recordEvent]) rfl rfl)
  refine ⟨fun ha => ?_, fun ha => ⟨fun hb => hboth ha (by simp [startRefusal, hb]), fun hb =>
    ⟨fun hm => hboth ha (by simp [startRefusal, hb, hm]), fun hm => ⟨fun he => hboth ha (by simp [startRefusal, hb, hm, he]),
      fun he reason hg => hboth ha (by simp [startRefusal, hb, hm, he, hg])⟩⟩⟩⟩
  have : goCue r s = recordEvent (.refused cue .notArmed) s := by simp [goCue, hcue, ha]
  rw [this, finish_recordEvent hs]

/-- With no delay standing at 0, none expires (R76). -/
theorem drainDelays_none (h : ∀ a ∈ s.ctl.armed, a.trigger ≠ some (.delaying 0)) : drainDelays s = s := by
  have hd (n : Nat) : drainDelay s n = s := by
    have : delayDone s n = false := by
      simp only [delayDone, List.any_eq_false, Bool.and_eq_true, decide_eq_true_eq, not_and]
      exact fun a ha _ => h a ha
    simp [drainDelay, this]
  have hf (l : List Nat) : l.foldl drainDelay s = s := by
    induction l with
    | nil => rfl
    | cons n l ih => rw [List.foldl_cons, hd, ih]
  exact hf _

theorem isRunning_none (n : Nat) (h : s.ctl.ctx = none) : isRunning s n = false := by simp [isRunning, h]

/-- What a start does to the armed list, the context and the marks before the sequencer is asked (R68). -/
def begun (r : CueRecord) (s : State) : State :=
  ((s.onCtl fun c =>
    { c with
      armed := c.armed.filter fun a => decide (a.cue ≠ r.cue.number)
      ctx := some (newContext s.station s.peers r)
      lastEvent := some (.started r.cue.number) }).onGen fun g => { g with progress := 0, fired := [] }).onLine fun l =>
    { l with markLost := false }

theorem startCue_eq (r : CueRecord) (s : State) :
    startCue r s = if withinBand s r then endInBand (begun r s) else requestStart .cue (begun r s) := rfl

theorem startRefusal_passed {r : CueRecord} (hx : s.ctl.ctx = none) (hb : homingBusy s = false)
    (ha : s.seq.axis = .rest ∨ s.seq.axis = .waking ∨ s.seq.axis = .parked) (hm : s.meas.referenced = true)
    (he : s.ctl.enableFresh = true) (hg : groupVerdict s.station s.peers r = none) : startRefusal s r = none := by
  have : startAllowed s = true := by
    rcases ha with ha | ha | ha <;> simp [startAllowed, hx, hb, ha]
  simp [startRefusal, this, hm, he, hg]

/-- Settles O36. -/
theorem cueStartsInWaking : Obligations.CueStartsInWaking := by
  intro s c cue r hs hc hr harm hx ha hreq hm he hg hband hothers
  have hcue : r.cue.number = cue := (findCue_some hr).2
  have hn : startRefusal s r = none :=
    startRefusal_passed hx (by simp [homingBusy, ha, hreq]) (.inr (.inl ha)) hm he hg
  have hbegun : (begun r s).seq.axis = .waking := ha
  have hstart : startCue r s = (begun r s).onSeq fun q => { q with startReq := .cue } := by
    rw [startCue_eq, hband, if_neg (by decide), requestStart, hbegun]
  have hdrain : drainDelays (startCue r s) = startCue r s := by
    refine drainDelays_none fun a h => ?_
    rw [hstart] at h
    obtain ⟨h1, h2⟩ := List.mem_filter.1 h
    exact hothers a h1 (by simpa [hcue] using h2)
  have hfin : finish (startCue r s) = startCue r s := by
    rw [hstart]
    refine finish_busy hs.1 (by simp [restConditions, hbegun]) ?_
    exact settled_rest (s := s) hs (by simp [restConditions, ha])
  have hexec : exec c s = .next (finish (startCue r s)) := by
    rcases hc with ⟨h, rfl, ht⟩ | ⟨rfl, hd⟩
    · rw [exec_go ht hr (isRunning_none cue hx)]
      simp only [goCue, hcue, harm, hn, Bool.not_true, Bool.false_eq_true, if_false]
      rw [hdrain]
    · rw [exec_followDelay hd]
      simp only [expireDelay, hr, hn]
  rw [hexec, hfin, hstart, begun, hcue]

end calls

end Sys2Proof.Machine


/-! PROOFS. MARKs of the line and the follow delays they start. -/

namespace Sys2Proof.Machine

section marks
variable {s u : State}

theorem exec_markFrame {h : Hdr} {cue mark : Nat} (ht : axisFrameTaken s h = true)
    (ha : s.ctl.armed.any (markMatches s h.sender cue mark) = true) :
    exec (.markFrame h cue mark) s = .next (finish (drainDelays (takeMark h.sender cue mark s))) :=
  if_pos (by simp [ht, ha])

theorem markMatches_iff (s : State) (sender cue mark : Nat) (a : ArmedCue) :
    markMatches s sender cue mark a = true ↔ a.trigger = some .waiting ∧
      ∃ r, findCue s.table a.cue = some r ∧
        ∃ f ∈ r.cue.follow, f.station = sender ∧ f.cue = cue ∧ f.mark = mark := by
  simp only [markMatches, Bool.and_eq_true, decide_eq_true_eq, followOf]
  refine and_congr_right fun _ => ?_
  cases findCue s.table a.cue with
  | none => simp
  | some r => cases hf : r.cue.follow <;> simp [hf, and_assoc]

/-! ## One delay that expires at once -/

/-- Hot entries are of one number, and none is PENDING. -/
def HotOnly (n : Nat) (s : State) : Prop := ∀ a ∈ s.ctl.armed, Hot a → a.cue = n ∧ a.trigger ≠ some .pending

theorem Act.keeps_hotOnly {b : Bool} {n : Nat} {t : State} (h : Act b .calm s t) (hs : HotOnly n s) : HotOnly n t := by
  have hsame (ha : t.ctl.armed = s.ctl.armed) : HotOnly n t := by rw [HotOnly, ha]; exact hs
  cases h
  case axis a _ _ _ => exact hsame (by simp)
  case rest _ => exact hsame (by simp [dropAbsent])
  case trip o => intro a ha; simp at ha
  case drive => exact hsame (by simp)
  case drop c => exact hsame (by rw [followDrive_ctl]; rfl)
  case relatch => exact hsame (by simp [dropAbsent])
  case control g _ _ calms =>
    intro a ha hot
    obtain ⟨a', ha', hc, ht⟩ := calms rfl (fun a ha hp => (hs a ha (.inr hp)).2 hp) a ha hot
    have hot' : Hot a' := by rwa [Hot, ht]
    exact ⟨hc ▸ (hs a' ha' hot').1, ht ▸ (hs a' ha' hot').2⟩
  case begin r _ _ _ => exact fun a ha hot => hs a (List.mem_of_mem_filter ha) hot
  case arm r w _ _ _ _ =>
    intro a ha hot
    rcases List.mem_append.1 ha with ha | ha
    · exact hs a ha hot
    · rw [List.mem_singleton.1 ha] at hot
      exfalso
      simp only [Hot, armedEntry] at hot
      split at hot <;> simp at hot
  all_goals exact hs

theorem drainDelay_idle {n : Nat} (h : delayDone s n = false) : drainDelay s n = s := by simp [drainDelay, h]

theorem foldl_drainDelay_idle {l : List Nat} (h : ∀ k ∈ l, delayDone s k = false) : l.foldl drainDelay s = s := by
  induction l with
  | nil => rfl
  | cons k l ih =>
    obtain ⟨h1, h2⟩ := List.forall_mem_cons.1 h
    rw [List.foldl_cons, drainDelay_idle h1, ih h2]

/-- Of distinct numbers, only one of which stands at 0 before and none other after, that one expires. -/
theorem foldl_drainDelay_one {l : List Nat} {n : Nat} (hl : l.Nodup) (hn : n ∈ l) (hd : delayDone s n = true)
    (hbefore : ∀ k, k ≠ n → delayDone s k = false) (hafter : ∀ k, k ≠ n → delayDone (expireDelay n s) k = false) :
    l.foldl drainDelay s = expireDelay n s := by
  induction l with
  | nil => cases hn
  | cons k l ih =>
    obtain ⟨hk, hl'⟩ := List.nodup_cons.1 hl
    by_cases he : k = n
    · subst he
      have : drainDelay s k = expireDelay k s := by simp [drainDelay, hd]
      rw [List.foldl_cons, this]
      exact foldl_drainDelay_idle fun j hj => hafter j fun he => hk (he ▸ hj)
    · rw [List.foldl_cons, drainDelay_idle (hbefore k he)]
      exact ih hl' ((List.mem_cons.1 hn).resolve_left (Ne.symm he))

theorem HotOnly.delayDone {n : Nat} (h : HotOnly n s) {k : Nat} (hk : k ≠ n) : delayDone s k = false := by
  simp only [Machine.delayDone, List.any_eq_false, Bool.and_eq_true, decide_eq_true_eq, not_and]
  exact fun a ha hc ht => hk (hc ▸ (h a ha (.inl ht)).1)

theorem drainDelays_one {n : Nat} (hot : HotOnly n s) (hd : (armedNumbers s).Nodup) (hn : delayDone s n = true) :
    drainDelays s = expireDelay n s := by
  have hafter : HotOnly n (expireDelay n s) :=
    (expireDelay_acts (f := .calm) n .refl).keeps (fun _ _ act hu => act.keeps_hotOnly hu) hot
  refine foldl_drainDelay_one hd ?_ hn (fun k hk => hot.delayDone hk) (fun k hk => hafter.delayDone hk)
  simp only [delayDone, List.any_eq_true, Bool.and_eq_true, decide_eq_true_eq] at hn
  obtain ⟨a, ha, hc, -⟩ := hn
  exact List.mem_map.2 ⟨a, ha, hc⟩

/-! ## The MARK -/

theorem armedNumbers_takeMark (sender cue mark : Nat) (s : State) :
    armedNumbers (takeMark sender cue mark s) = armedNumbers s := by
  simp only [armedNumbers, takeMark, onCtl_ctl, List.map_map]
  refine List.map_congr_left fun a _ => ?_
  simp only [Function.comp]; split <;> rfl

/-- An entry after a MARK: as it was, or with its delay or PENDING. -/
theorem mem_takeMark {sender cue mark : Nat} {a' : ArmedCue} (h : a' ∈ (takeMark sender cue mark s).ctl.armed) :
    ∃ a ∈ s.ctl.armed, a'.cue = a.cue ∧
      a'.trigger = if markMatches s sender cue mark a then
        some (if s.ctl.ctx.isNone then .delaying (delayOf s a.cue) else .pending) else a.trigger := by
  obtain ⟨a, ha, rfl⟩ := List.mem_map.1 h
  refine ⟨a, ha, ?_⟩
  split <;> exact ⟨rfl, rfl⟩

/-- Settles O31: the entries a MARK moves, and the one delay of 0 among them. -/
theorem markTriggersFollowCues : Obligations.MarkTriggersFollowCues := by
  intro s h cue mark hs ht
  dsimp only
  refine ⟨fun a => markMatches_iff s _ _ _ a, fun hno => ?_, fun hz hdelay => ?_, fun n hx hd hhit h0 hother hcold => ?_⟩
  · refine if_neg ?_
    simp only [Bool.and_eq_true, not_and, Bool.not_eq_true, List.any_eq_false]
    exact fun _ a ha => by simp [hno a ha]
  · by_cases hany : s.ctl.armed.any (markMatches s h.sender cue mark) = true
    · rw [exec_markFrame ht hany, drainDelays_none]
      · exact congrArg _ (finish_of hs rfl rfl (by simp [takeMark]) rfl rfl)
      · intro a' ha'
        obtain ⟨a, ha, -, htr⟩ := mem_takeMark ha'
        rw [htr]
        split
        · rename_i hm
          split
          · rename_i hn
            have := hdelay (by simpa using hn) a ha hm
            simpa using this
          · simp
        · exact hz a ha
    · have hno : ∀ a ∈ s.ctl.armed, markMatches s h.sender cue mark a = false := by simpa using hany
      have hmoved : (s.ctl.armed.map fun a => if markMatches s h.sender cue mark a then
          { a with trigger := some (if s.ctl.ctx.isNone then .delaying (delayOf s a.cue) else .pending) } else a) =
            s.ctl.armed := by
        conv_rhs => rw [← List.map_id s.ctl.armed]
        exact List.map_congr_left fun a ha => by rw [hno a ha]; rfl
      rw [hmoved]
      exact if_neg (by simp [hany])
  · obtain ⟨a₀, ha₀, hc₀, hm₀⟩ := hhit
    have hany : s.ctl.armed.any (markMatches s h.sender cue mark) = true := List.any_eq_true.2 ⟨a₀, ha₀, hm₀⟩
    have hot : HotOnly n (takeMark h.sender cue mark s) := by
      intro a' ha' hot
      obtain ⟨a, ha, hc, htr⟩ := mem_takeMark ha'
      rw [hc, htr]
      rw [Hot, htr] at hot
      split at hot
      · rename_i hm
        have hdl : delayOf s a.cue = 0 := by simpa [hx] using hot
        refine ⟨by_contra fun hne => hother a ha hne hm hdl, by simp [hm, hx]⟩
      · exact absurd hot (not_or.2 (hcold a ha))
    have hdone : delayDone (takeMark h.sender cue mark s) n = true := by
      simp only [delayDone, List.any_eq_true, Bool.and_eq_true, decide_eq_true_eq]
      refine ⟨{ a₀ with trigger := some (.delaying 0) }, List.mem_map.2 ⟨a₀, ha₀, ?_⟩, hc₀, rfl⟩
      rw [if_pos hm₀, hx, hc₀, h0]; rfl
    have hruns : delayRuns (takeMark h.sender cue mark s) n = true := by
      simp only [delayDone, List.any_eq_true, Bool.and_eq_true, decide_eq_true_eq] at hdone
      obtain ⟨a, ha, hc, htr⟩ := hdone
      exact List.any_eq_true.2 ⟨a, ha, by simp [hc, htr, isDelaying]⟩
    rw [exec_markFrame ht hany, drainDelays_one hot (by rwa [armedNumbers_takeMark]) hdone]
    exact (exec_followDelay hruns).symm

end marks

end Sys2Proof.Machine


/-! PROOFS. The requests to the cue table and the stores: CUELOAD, CUEDROP, CUEASK, SAVE. -/

namespace Sys2Proof.Machine

section table
variable {s : State}

/-! ## The table read by number -/

/-- In a table in order, an insertion adds one record for a new number and none for a number that stands (R50, R56). -/
theorem length_insertRecord (r : CueRecord) {t : List CueRecord} (h : (numbers t).Pairwise (· < ·)) :
    (insertRecord r t).length = t.length + (if (findCue t r.cue.number).isSome then 0 else 1) := by
  induction t with
  | nil => rfl
  | cons q t ih =>
    obtain ⟨hq, ht⟩ : (∀ n ∈ numbers t, q.cue.number < n) ∧ (numbers t).Pairwise (· < ·) := List.pairwise_cons.1 h
    simp only [insertRecord]
    split
    · rename_i hlt
      have hnone : findCue (q :: t) r.cue.number = none := by
        refine Option.eq_none_iff_forall_ne_some.2 fun p hp => ?_
        have hm : r.cue.number ∈ numbers (q :: t) := (findCue_isSome_iff _ _).1 (by rw [hp]; rfl)
        rcases List.mem_cons.1 hm with hm | hm
        · exact absurd hm hlt.ne
        · have := hq _ hm; omega
      simp [hnone]
    · split
      · rename_i heq; simp [findCue, heq]
      · rename_i hne
        have : findCue (q :: t) r.cue.number = findCue t r.cue.number := List.find?_cons_of_neg (by simpa using Ne.symm hne)
        rw [this, List.length_cons, List.length_cons, ih ht]
        omega

theorem tableLawful_insertRecord (r : CueRecord) (h : TableLawful s)
    (hroom : s.table.length < 200 ∨ (findCue s.table r.cue.number).isSome = true) :
    TableLawful (s.onTable (insertRecord r)) := by
  refine ⟨?_, numbers_insertRecord_sorted r h.2⟩
  have hl := h.1
  change (insertRecord r s.table).length ≤ 200
  rw [length_insertRecord r h.2]
  rcases hroom with hr | hr
  · split <;> omega
  · simpa [hr] using hl

/-- In a table in order, a number that stands has one record (R50). -/
theorem length_removeRecord {t : List CueRecord} {n : Nat} (h : (numbers t).Pairwise (· < ·))
    (hn : (findCue t n).isSome = true) : (removeRecord n t).length = t.length - 1 := by
  have hone : (numbers t).count n = 1 :=
    List.count_eq_one_of_mem (h.imp fun hlt => Nat.ne_of_lt hlt) ((findCue_isSome_iff t n).1 hn)
  have hcount : t.countP (fun r => decide (r.cue.number = n)) = 1 := by
    rw [← hone, numbers, List.count, List.countP_map]
    exact List.countP_congr fun r _ => by simp
  have hsplit := List.length_eq_countP_add_countP (fun r : CueRecord => decide (r.cue.number = n)) (l := t)
  have hrest : t.countP (fun r => !decide (r.cue.number = n)) = (removeRecord n t).length := by
    rw [List.countP_eq_length_filter, removeRecord]
    exact congrArg List.length (List.filter_congr fun r _ => by simp)
  simp only [decide_eq_true_eq] at hsplit
  simp_all

/-- In a table in order, the first record from a number on is the least one (R59). -/
theorem find_least_iff {t : List CueRecord} (h : (numbers t).Pairwise (· < ·)) (n : Nat) (r : CueRecord) :
    t.find? (fun q => decide (n ≤ q.cue.number)) = some r ↔
      r ∈ t ∧ n ≤ r.cue.number ∧ ∀ q ∈ t, n ≤ q.cue.number → r.cue.number ≤ q.cue.number := by
  induction t with
  | nil => simp
  | cons p t ih =>
    obtain ⟨hp, ht⟩ : (∀ k ∈ numbers t, p.cue.number < k) ∧ (numbers t).Pairwise (· < ·) := List.pairwise_cons.1 h
    have hlt (q) (hq : q ∈ t) : p.cue.number < q.cue.number := hp _ (List.mem_map_of_mem hq)
    by_cases hn : n ≤ p.cue.number
    · simp only [List.find?_cons, hn, decide_true, Option.some.injEq, List.mem_cons]
      constructor
      · rintro rfl
        refine ⟨.inl rfl, hn, ?_⟩
        rintro q (rfl | hq) _
        · exact le_rfl
        · exact (hlt q hq).le
      · rintro ⟨rfl | hr, -, hmin⟩
        · rfl
        · have := hmin p (.inl rfl) hn
          have := hlt r hr
          omega
    · simp only [List.find?_cons, hn, decide_false, ih ht, List.mem_cons]
      constructor
      · rintro ⟨hr, h1, hmin⟩
        refine ⟨.inr hr, h1, ?_⟩
        rintro q (rfl | hq) hnq
        · exact absurd hnq hn
        · exact hmin q hq hnq
      · rintro ⟨rfl | hr, h1, hmin⟩
        · exact absurd h1 hn
        · exact ⟨hr, h1, fun q hq => hmin q (.inr hq)⟩

/-! ## CUELOAD -/

theorem exec_cueload {h : Hdr} {req : CueLoad} (ht : requestTaken s h = true) :
    exec (.cueload h req) s = .next (loadCue h req s) := if_pos ht

theorem loadCue_refused {h : Hdr} {req : CueLoad} {result : ReplyResult} {detail : Nat}
    (hr : loadRefusal s req = some (result, detail)) : loadCue h req s = answer h .cueload result detail s := by
  simp [loadCue, hr]

theorem loadCue_taken {h : Hdr} {req : CueLoad} (hr : loadRefusal s req = none) :
    loadCue h req s = answer h .cueload .done (takenRecord (recordOf req)).sig.toNat
      (s.onTable (insertRecord (takenRecord (recordOf req)))) := by
  simp [loadCue, hr]

/-- Settles O45: `loadRefusal` test by test, then the insertion. -/
theorem cueloadTestedThenTaken : Obligations.CueloadTestedThenTaken := by
  intro s h req ht
  dsimp only
  rw [exec_cueload ht]
  have hrefuse {result : ReplyResult} {detail : Nat} (hr : loadRefusal s req = some (result, detail)) :
      (Host.Outcome.next (loadCue h req s) : Host.Outcome State Fault Refusal) =
        .next (answer h .cueload result detail s) := by rw [loadCue_refused hr]
  refine ⟨fun hs => hrefuse ?_, fun hs => ⟨fun ident hb => hrefuse ?_, fun hb => ⟨fun hrun => hrefuse ?_, fun hrun harm =>
    hrefuse ?_, fun hrun harm => ⟨fun hfull hnone => hrefuse ?_, fun hlaw hroom => ?_⟩⟩⟩⟩
  · simp [loadRefusal, hs]
  · simp [loadRefusal, hs, hb]
  · simp [loadRefusal, hs, hb, inUse, useDetail, hrun]
  · simp [loadRefusal, hs, hb, inUse, useDetail, hrun, harm]
  · simp [loadRefusal, hs, hb, inUse, hrun, harm, hfull, hnone]
  · have hr : loadRefusal s req = none := by
      have hnot : ¬(200 ≤ s.table.length ∧ (findCue s.table (recordOf req).number).isNone = true) := by
        rintro ⟨h1, h2⟩
        rcases hroom with hroom | hroom
        · omega
        · rw [Option.isNone_iff_eq_none] at h2; rw [h2] at hroom; exact absurd hroom (by decide)
      simp only [loadRefusal, hs, hb, inUse, hrun, harm, Option.isSome_none, Bool.or_false, if_false, hnot,
        Bool.false_eq_true]
    rw [loadCue_taken hr, answers_next]
    let r := takenRecord (recordOf req)
    exact ⟨findCue_insertRecord r s.table, fun k hk => findCue_insertRecord_other r s.table k hk,
      length_insertRecord r hlaw.2, tableLawful_insertRecord r hlaw hroom, rfl⟩

/-! ## CUEDROP and CUEASK -/

theorem exec_cuedrop {h : Hdr} {n : Nat} (ht : requestTaken s h = true) : exec (.cuedrop h n) s = .next (dropCue h n s) :=
  if_pos ht

/-- Settles O46: `dropRefusal` test by test, then the removal; `find_least_iff` for the CUEASK. -/
theorem cuedropTestedThenTaken : Obligations.CuedropTestedThenTaken := by
  intro s h n ht
  rw [exec_cuedrop ht]
  have hrefuse {result : ReplyResult} {detail : Nat} (hr : dropRefusal s n = some (result, detail)) :
      (Host.Outcome.next (dropCue h n s) : Host.Outcome State Fault Refusal) =
        .next (answer h .cuedrop result detail s) := by simp [dropCue, hr]
  refine ⟨fun hs => hrefuse ?_, fun hs hn => hrefuse ?_, fun hs hn => ⟨fun hrun => hrefuse ?_, fun hrun harm => hrefuse ?_,
    fun hlaw hrun harm => ?_⟩, fun form => if_pos ht, fun r hlaw => find_least_iff hlaw.2 n r⟩
  · simp [dropRefusal, hs]
  · simp [dropRefusal, hs, hn]
  · simp [dropRefusal, hs, inUse, useDetail, hrun, Option.isSome_iff_ne_none.1 hn]
  · simp [dropRefusal, hs, inUse, useDetail, hrun, harm, Option.isSome_iff_ne_none.1 hn]
  · have hr : dropRefusal s n = none := by
      simp [dropRefusal, hs, inUse, hrun, harm, Option.isSome_iff_ne_none.1 hn]
    have he : dropCue h n s = answer h .cuedrop .done (removeRecord n s.table).length (s.onTable (removeRecord n)) := by
      simp [dropCue, hr]
    rw [he, length_removeRecord hlaw.2 hn]
    rfl

/-! ## SAVE -/

theorem exec_save {h : Hdr} (ht : requestTaken s h = true) :
    exec (.save h) s = .next (if s.store.writing then joinWaiting (.save h) s else takeSave h s) := if_pos ht

/-- Settles O47. -/
theorem saveWritesTable : Obligations.SaveWritesTable := by
  intro s h
  refine ⟨fun ht hw => ?_, fun ht hw hs => ?_, fun nv hv => by simp [NvCues.good, hv], fun ht hw hs => ?_, fun hs => ?_, ?_⟩
  · rw [exec_save ht, if_pos hw]; rfl
  · rw [exec_save ht, hw, if_neg (by decide), takeSave, hs, if_neg (by decide)]; rfl
  · rw [exec_save ht, hw, if_neg (by decide), takeSave, if_pos hs]
  · simp [exec, execSaveComplete, hs]
  · intro records l₁ e l₂ asker seq hs hl he hfirst
    refine ⟨writtenCues_good records, ?_⟩
    have hf : fulfil .save records.length s.line.replies =
        l₁ ++ { e with body := .reply ⟨asker, .save, seq, .done, records.length⟩ } :: l₂ := by
      rw [hl, fulfil_first _ _ _ _ _ _ _ he hfirst]
    simp only [exec, execSaveComplete, hs, State.onStore, State.onLine, hf]
    cases records <;> rfl

end table

end Sys2Proof.Machine


/-! PROOFS. SETUP: its tests, its write, the requests that wait for it, and the fields it changes. -/

namespace Sys2Proof.Machine

section setup
variable {s u : State}

/-! ## SETUP and the end of its write -/

theorem requestTaken_iff (s : State) (h : Hdr) : requestTaken s h = true ↔
    consoleFrameTaken s h = true ∧ h.addressee = s.station ∧ replyFree s = true := by
  simp [requestTaken, and_assoc]

/-- The part with MAINT_KEY as a SETUP reads it. -/
def keyed (key : Bool) (s : State) : State := s.onInp fun p => { p with maintKey := key }

theorem exec_setup {h : Hdr} {ident : Nat} {value : SetupValue} {key : Bool} (ht : requestTaken s h = true) :
    exec (.setup h ident value key) s =
      .next (if s.store.writing then joinWaiting (.setup h ident value) (keyed key s)
        else takeSetup h ident value (keyed key s)) := by
  obtain ⟨hc, ha, hf⟩ := (requestTaken_iff s h).1 ht
  have hfree : replyFree (keyed key s) = true := hf
  have hw : (keyed key s).store.writing = s.store.writing := rfl
  have he : exec (.setup h ident value key) s = if !replyFree (keyed key s) then .next (keyed key s)
      else if (keyed key s).store.writing then .next (joinWaiting (.setup h ident value) (keyed key s))
      else .next (takeSetup h ident value (keyed key s)) := if_pos (by simp [hc, ha])
  rw [he, hfree, hw, if_neg (by decide)]
  split <;> rfl

/-- No request waits. -/
def waitingDone (s : State) : State := s.onStore fun t => { t with waiting := [] }

/-- Acting on a SAVE does not look at the requests that wait. -/
theorem takeSave_waitingDone (h : Hdr) (s : State) : waitingDone (takeSave h s) = takeSave h (waitingDone s) := by
  have hs : (waitingDone s).store.saving = s.store.saving := rfl
  unfold takeSave
  rw [hs]
  split <;> rfl

/-- Nor does acting on a SETUP. -/
theorem takeSetup_waitingDone (h : Hdr) (ident : Nat) (value : SetupValue) (s : State) :
    waitingDone (takeSetup h ident value s) = takeSetup h ident value (waitingDone s) := by
  have hk : (waitingDone s).inp.maintKey = s.inp.maintKey := rfl
  have hi : setupIdle (waitingDone s) = setupIdle s := rfl
  have ha : applySetup (waitingDone s).station (waitingDone s).store.image ident value =
      applySetup s.station s.store.image ident value := rfl
  unfold takeSetup
  rw [hk, hi, ha]
  split
  · rfl
  · split
    · rfl
    · split <;> rfl

/-- One request that has waited is taken, and none is left. -/
theorem drainWaiting_one (r : StoreRequest) (s : State) : drainWaiting [r] s = waitingDone (takeWaiting r s) := by
  simp only [drainWaiting]
  split <;> rfl

/-- The state in which the requests that waited are taken: block written, answer in the place of its reservation. -/
def setupWritten (s : State) : State :=
  (s.onStore fun t => { t with nvSetup := writtenSetup t.image t.revision, writing := false }).onLine fun l =>
    { l with replies := fulfil .setup s.store.revision.toNat l.replies }

theorem exec_setupWriteComplete (hw : s.store.writing = true) :
    exec .setupWriteComplete s = .next (drainWaiting s.store.waiting (setupWritten s)) := if_pos hw

/-! ## The fields of SETUP -/

theorem fieldRange_numeric {i : Nat} {r : Nat × Nat} (h : fieldRange i = some r) : i ∈ numericFields := by
  unfold fieldRange at h
  split at h <;> simp [numericFields] at h ⊢

theorem fieldValue_setField_same {i : Nat} (h : i ∈ numericFields) (S : Setup) (n : Nat) :
    fieldValue (setField S i n) i = n := by
  simp only [numericFields, List.mem_cons, List.not_mem_nil, or_false] at h
  rcases h with rfl | rfl | rfl | rfl | rfl | rfl | rfl | rfl | rfl | rfl | rfl | rfl | rfl | rfl | rfl | rfl | rfl | rfl |
    rfl | rfl | rfl | rfl | rfl | rfl | rfl | rfl | rfl | rfl | rfl <;> rfl

theorem fieldValue_setField_other {i j : Nat} (h : j ≠ i) (S : Setup) (n : Nat) :
    fieldValue (setField S i n) j = fieldValue S j := by
  unfold setField
  split
  all_goals
    unfold fieldValue
    split
    all_goals try contradiction
    all_goals rfl

theorem setField_keeps (S : Setup) (i n : Nat) :
    (setField S i n).homeDir = S.homeDir ∧ (setField S i n).clsFollowing = S.clsFollowing ∧
      (setField S i n).clsOverload = S.clsOverload ∧ (setField S i n).clsSlack = S.clsSlack ∧
      (setField S i n).clsLoadSensor = S.clsLoadSensor ∧ (setField S i n).rules = S.rules := by
  unfold setField
  split <;> exact ⟨rfl, rfl, rfl, rfl, rfl, rfl⟩

theorem applySetup_numeric {i : Nat} {r : Nat × Nat} (hr : fieldRange i = some r) (own : Nat) (S : Setup) (n : Nat) :
    applySetup own S i (.num n) = if inRange r n then some (setField S i n) else none := by
  simp [applySetup, hr]

theorem fieldRange_large {i : Nat} (h : 41 ≤ i) : fieldRange i = none := by
  refine Option.eq_none_iff_forall_ne_some.2 fun r hr => ?_
  have := fieldRange_numeric hr
  simp only [numericFields, List.mem_cons, List.not_mem_nil, or_false] at this
  omega

/-- The RANGE test of a rule's field: its range, and no rule on the own station (R167). -/
def ruleFieldGood (own place n : Nat) (r : Nat × Nat) : Bool := inRange r n && !(decide (place = 1) && decide (n = own))

theorem applySetup_rule {own : Nat} {S : Setup} (rule : Fin 8) {place n : Nat} {r : Nat × Nat}
    (hr : ruleFieldRange place = some r) (hp : place < 100) :
    applySetup own S (100 * (rule + 1) + place) (.num n) =
      if ruleFieldGood own place n r then
        some { S with rules := S.rules.set rule (setRuleField S.rules[rule] place n) rule.isLt } else none := by
  have hnum : fieldRange (100 * ((rule : Nat) + 1) + place) = none := fieldRange_large (by omega)
  have hrule : (100 * ((rule : Nat) + 1) + place) / 100 - 1 = rule := by omega
  have hplace : (100 * ((rule : Nat) + 1) + place) % 100 = place := by omega
  have hin : 100 ≤ 100 * ((rule : Nat) + 1) + place ∧ (rule : Nat) < 8 := ⟨by omega, rule.isLt⟩
  simp only [applySetup, hnum, applyRuleField, hplace, hr, hrule, dif_pos hin]
  rfl

/-- The six numbers of a rule, in the order of their places. -/
def ruleNumbers (r : ClearanceRule) : List Nat := [r.peer, r.peerLow, r.peerHigh, r.ownLow, r.ownHigh, r.margin]

theorem ruleNumbers_setRuleField {place : Nat} (h : 1 ≤ place ∧ place ≤ 6) (r : ClearanceRule) (n : Nat) :
    ruleNumbers (setRuleField r place n) = (ruleNumbers r).set (place - 1) n := by
  obtain ⟨h1, h6⟩ := h
  interval_cases place <;> rfl

theorem ruleFieldRange_small {p : Nat} {r : Nat × Nat} (h : ruleFieldRange p = some r) : 1 ≤ p ∧ p ≤ 6 := by
  unfold ruleFieldRange at h
  split at h <;> simp at h ⊢

/-- An identifier outside the numeric fields and the places of the rules has no number (R167). -/
theorem applySetup_unknown {own : Nat} {S : Setup} {i n : Nat} (hf : fieldRange i = none)
    (hr : ∀ rule < 8, ∀ place < 7, i ≠ 100 * (rule + 1) + place ∨ place = 0) : applySetup own S i (.num n) = none := by
  simp only [applySetup, hf, applyRuleField]
  split
  · rename_i hin
    cases hp : ruleFieldRange (i % 100) with
    | none => rfl
    | some r =>
      have hsmall := ruleFieldRange_small hp
      have := hr (i / 100 - 1) hin.2 (i % 100) (by omega)
      omega
  · rfl

/-- Settles O48: `takeSetup` test by test, the end of its write, and the laws of `applySetup`. -/
theorem setupTestedThenWritten : Obligations.SetupTestedThenWritten := by
  intro s h ident value key
  refine ⟨fun hc ha hf => ?_, fun ht hw => ?_, fun ht hw => ?_, ?_, ?_, fun own S d => rfl, ?_, ?_, ?_⟩
  · have he : exec (.setup h ident value key) s = if !replyFree (keyed key s) then .next (keyed key s)
        else if (keyed key s).store.writing then .next (joinWaiting (.setup h ident value) (keyed key s))
        else .next (takeSetup h ident value (keyed key s)) := if_pos (by simp [hc, ha])
    have hfree : replyFree (keyed key s) = false := hf
    rw [he, hfree]; rfl
  · have hk : (keyed key s).inp.maintKey = key := rfl
    have hi : setupIdle (keyed key s) = setupIdle s := rfl
    have ha : applySetup (keyed key s).station (keyed key s).store.image ident value =
        applySetup s.station s.store.image ident value := rfl
    rw [exec_setup ht, hw, if_neg (by decide), takeSetup, hk, hi, ha]
    refine ⟨fun h1 => ?_, fun h1 h2 => ?_, fun h1 h2 h3 => ?_, fun image h1 h2 h3 => ?_⟩
    · rw [h1]; rfl
    · rw [h1, h2]; rfl
    · rw [h1, h2, h3]; rfl
    · rw [h1, h2, h3]; rfl
  · rw [exec_setup ht, if_pos hw]; rfl
  · intro l₁ e l₂ asker seq hw hl he hfirst
    have hf : fulfil .setup s.store.revision.toNat s.line.replies =
        l₁ ++ { e with body := .reply ⟨asker, .setup, seq, .done, s.store.revision.toNat⟩ } :: l₂ := by
      rw [hl, fulfil_first _ _ _ _ _ _ _ he hfirst]
    have hdone : waitingDone (setupWritten s) =
        (s.onStore fun t => { t with
          nvSetup := ⟨s.store.image, s.store.revision, setupCheck s.store.image s.store.revision⟩
          writing := false
          waiting := [] }).onLine fun l => { l with
            replies := l₁ ++ { e with body := .reply ⟨asker, .setup, seq, .done, s.store.revision.toNat⟩ } :: l₂ } := by
      simp only [waitingDone, setupWritten, State.onStore, State.onLine, hf, writtenSetup]
    refine ⟨writtenSetup_good _ _, fun hwait => ?_, fun k hroom hc ha => ⟨fun hwait => ?_, fun i v hwait => ?_⟩⟩
    · rw [exec_setupWriteComplete hw, hwait, ← hdone]; rfl
    all_goals
      have htaken : requestTaken (waitingDone (setupWritten s)) k = true := by
        refine (requestTaken_iff _ _).2 ⟨hc, ha, ?_⟩
        have : (fulfil .setup s.store.revision.toNat s.line.replies).length = s.line.replies.length := by
          rw [hf, hl]; simp
        change decide ((fulfil .setup s.store.revision.toNat s.line.replies).length + 0 < 4) = true
        rw [this]; simpa using hroom
      rw [exec_setupWriteComplete hw, hwait, ← hdone, drainWaiting_one]
    · rw [exec_save htaken, ← takeSave_waitingDone]; rfl
    · have hkey : requestTaken { waitingDone (setupWritten s) with freeCount := s.freeCount + 1 } k = true := htaken
      rw [exec_setup hkey, takeWaiting, takeSetup_waitingDone]
      rfl
  · intro own S i n r hr
    rw [applySetup_numeric hr]
    refine ⟨fun hout => if_neg ?_, fun h1 h2 => ⟨setField S i n, if_pos ?_, ?_⟩⟩
    · simp only [inRange, Bool.and_eq_true, decide_eq_true_eq]; omega
    · simp [inRange, h1, h2]
    · exact ⟨fieldValue_setField_same (fieldRange_numeric hr) S n, fun j _ hj => fieldValue_setField_other hj S n,
        setField_keeps S i n⟩
  · intro own S k
    cases k <;> simp [applySetup, classField, classAllowed, setClass]
  · intro own S rule place lo hi n hmem
    have hr : ruleFieldRange place = some (lo, hi) := by
      simp only [List.mem_cons, Prod.mk.injEq, List.not_mem_nil, or_false] at hmem
      rcases hmem with ⟨rfl, rfl, rfl⟩ | ⟨rfl, rfl, rfl⟩ | ⟨rfl, rfl, rfl⟩ | ⟨rfl, rfl, rfl⟩ | ⟨rfl, rfl, rfl⟩ |
        ⟨rfl, rfl, rfl⟩ <;> rfl
    have hp := ruleFieldRange_small hr
    dsimp only
    rw [applySetup_rule rule hr (by omega)]
    refine ⟨fun hout => if_neg ?_, fun h1 h2 => if_neg (by simp [ruleFieldGood, h1, h2]),
      fun h1 h2 h3 => ⟨_, if_pos ?_, ?_, fun j hj => ?_, rfl⟩⟩
    · simp only [ruleFieldGood, inRange, Bool.and_eq_true, decide_eq_true_eq]; omega
    · simpa [ruleFieldGood, inRange, h1, h2] using imp_iff_not_or.1 h3
    · simpa [ruleNumbers] using ruleNumbers_setRuleField hp S.rules[rule] n
    · have : (rule : Nat) ≠ j := fun e => hj (Fin.ext e.symm)
      simp [Vector.getElem_set_ne, this]
  · intro own S i
    refine ⟨fun n hf hr => applySetup_unknown hf hr, fun d hd => if_neg hd, fun k hk => ?_⟩
    have : classField i = none := by
      unfold classField
      split <;> simp at hk ⊢
    simp [applySetup, this]

end setup

end Sys2Proof.Machine


/-! PROOFS. Inputs, brake feedback, the sequencer's timers and CLEAR: commands that set the axis in one known state. -/

namespace Sys2Proof.Machine

section events
variable {s u : State}

/-! ## Changes of axis state, read off -/

@[simp] theorem setAxis_senses (a : AxisState) (s : State) : senses (setAxis a s).meas = senses s.meas :=
  congrArg (·.1) (setAxis_still a s)

/-- In a state whose duty source is 2048 the duty is forced (R2, R135). -/
theorem setAxis_zeroDuty {a : AxisState} (ha : a ∈ [AxisState.rest, .waking, .parked, .suspended, .recovering])
    (s : State) : (setAxis a s).meas.pendingDuty = 2048 ∧ (setAxis a s).meas.activeDuty = 2048 := by
  have hz : dutyAtZero ((s.onSeq (seqIn a)).onSup (presenceIn a)) = true := by
    simp only [List.mem_cons, List.not_mem_nil, or_false] at ha
    rcases ha with rfl | rfl | rfl | rfl | rfl <;> simp [dutyAtZero]
  have := setAxis_duty a s
  simp only [hz, if_true] at this
  exact this

/-- A command that leaves the part where it stands, but for what `Settled` does not read. -/
theorem answers_finish {p : State → Prop} (hs : Settled s) (h1 : u.line.statusDue = s.line.statusDue)
    (h2 : u.seq = s.seq) (h3 : u.ctl.armed.isEmpty = s.ctl.armed.isEmpty) (h4 : u.ctl.ctx.isNone = s.ctl.ctx.isNone)
    (h5 : u.store.live = s.store.live) (hp : p u) : Answers (.next (finish u)) p :=
  ⟨u, congrArg _ (finish_of hs h1 h2 h3 h4 h5), hp⟩

theorem watched_of (hh : s.held = none) (ha : s.seq.axis ≠ .unaddressed) : watched s = true := by simp [watched, hh, ha]

/-! ## Inputs -/

theorem evaluateLevel_false (c : Condition) (f : Inputs → Inputs) (hh : s.held = none) (ha : s.seq.axis ≠ .unaddressed) :
    evaluateLevel c false (s.onInp f) = markAbsent c (s.onInp f) := if_pos (watched_of hh ha)

/-- Settles O50. -/
theorem inputsChangeWhatReadsThem : Obligations.InputsChangeWhatReadsThem := by
  intro s hs hh
  refine ⟨⟨_, rfl, rfl, rfl, rfl, rfl, rfl, rfl, rfl, rfl, rfl, rfl⟩, fun ha => ⟨?_, ?_⟩, rfl, ⟨_, rfl, ?_, rfl, rfl, rfl⟩,
    fun step => ?_, rfl⟩
  · have he : exec .driveFaultDeasserted s =
        .next (finish (markAbsent .driveFault (s.onInp fun p => { p with driveFault := false }))) :=
      congrArg (Host.Outcome.next ∘ finish) (evaluateLevel_false _ _ hh ha)
    rw [he]
    exact answers_finish hs rfl rfl rfl rfl rfl ⟨rfl, rfl, rfl, rfl, rfl, rfl, rfl, rfl, rfl, rfl⟩
  · have he : exec .ultimateClosed s =
        .next (finish (markAbsent .ultimate (s.onInp fun p => { p with ultUpOpen := false, ultDownOpen := false }))) :=
      congrArg (Host.Outcome.next ∘ finish) (evaluateLevel_false _ _ hh ha)
    rw [he]
    exact answers_finish hs rfl rfl rfl rfl rfl ⟨rfl, rfl, rfl, rfl, rfl, rfl, rfl, rfl, rfl, rfl⟩
  · change captureEdge s.meas.count s.meas.capture = _
    cases s.meas.capture <;> simp [captureEdge]
  · have he : exec (.encoderStep step) s =
        .next ((s.onInp (pinStep step)).onMeas fun m => { m with count := countStep step m.count }) :=
      if_neg (by simp [hh])
    rw [he]
    exact ⟨_, rfl, rfl, rfl, rfl, rfl⟩

/-! ## Brake feedback -/

/-- The part with BRAKE_FB reading set, BRAKE_SET absent (R141). -/
def setSeen (s : State) : State := markAbsent .brakeSet (s.onInp fun p => { p with brakeReleased := false })

theorem exec_brakeFbSet (s : State) : exec .brakeFbSet s =
    .next (finish (if s.seq.axis = .setting then confirmSet (setSeen s) else setSeen s)) := rfl

theorem setSeen_present (s : State) : (setSeen s).sup.present = removeCondition .brakeSet s.sup.present := rfl

/-- Settles O53. -/
theorem brakeSetEntersDestination : Obligations.BrakeSetEntersDestination := by
  intro s hs
  rw [exec_brakeFbSet]
  refine ⟨fun ha => ?_, fun d a hda ha hd => ?_, fun ha hd => ?_⟩
  · rw [if_neg ha]
    exact answers_finish hs rfl rfl rfl rfl rfl ⟨rfl, rfl, rfl, rfl, rfl, rfl, rfl, rfl, rfl, rfl⟩
  · have hdest : (setSeen s).seq.dest = d := hd
    have hzero : a ∈ [AxisState.rest, .waking, .parked, .suspended, .recovering] ∧ a ≠ .moving ∧ brakeRelIn a = false ∧
        confirmSet (setSeen s) = setAxis a (setSeen s) := by
      rw [confirmSet, hdest]
      simp only [List.mem_cons, Prod.mk.injEq, List.not_mem_nil, or_false] at hda
      rcases hda with ⟨rfl, rfl⟩ | ⟨rfl, rfl⟩ | ⟨rfl, rfl⟩ <;> exact ⟨by decide, by decide, rfl, rfl⟩
    obtain ⟨hz, hm, hb, hc⟩ := hzero
    obtain ⟨hp, hact⟩ := setAxis_zeroDuty hz (setSeen s)
    rw [if_pos ha, hc, answers_next]
    refine ⟨by simp, by simp [seqIn], by simp [brakeRel, hb], by simpa using hp, by simpa using hact, ?_, by simp; rfl, ?_,
      by simp; rfl, by simp; rfl, by simp; rfl, by simp; rfl, by simp; rfl⟩
    · rw [finish_ctl, setAxis_ctl, contextIn_other _ _ hm]; rfl
    · simp [isPresent, presenceIn, setSeen_present]
  · have hdest : (setSeen s).seq.dest = .tripped := hd
    have hc : confirmSet (setSeen s) = enterTripped (settingOutcome (setSeen s)) (setSeen s) := by rw [confirmSet, hdest]
    rw [if_pos ha, hc, answers_next]
    obtain ⟨hb, hst, hp, hg, -⟩ := enterTripped_frame (settingOutcome (setSeen s)) (setSeen s)
    refine ⟨by simp, by simp, by simp, by simp, by simp [brakeRel, brakeRelIn], by simp; rfl, fun hl => ?_, ?_, ?_, ?_, ?_⟩
    · have hoff := enterTripped_driveOff (settingOutcome (setSeen s)) (setSeen s)
        (.inl (show trippedHolding s = false by simp [trippedHolding, hl]))
      simpa [DriveOff] using hoff
    · rw [finish_base, hb]; rfl
    · rw [finish_still, hst]; rfl
    · rw [finish_path, hp]; rfl
    · rw [finish_guard, hg]; rfl

/-! ## The sequencer's timers -/

/-- Settles O58. -/
theorem sequencerTimersExpire : Obligations.SequencerTimersExpire := by
  intro s hs
  refine ⟨fun ha hh hb => ?_, fun ha hr => ?_, fun ha hb => ?_⟩
  · have he : exec .holdToBrakeExpiry s = .next (finish (enterSetting .suspended s)) := if_pos ⟨ha, hh⟩
    rw [he, enterSetting_waits _ _ hb, answers_next]
    simp [seqIn, brakeRel, brakeRelIn]
  · have he : exec .restTimerExpiry s = .next (finish (setAxis .rest s)) := if_pos ⟨ha, hr⟩
    obtain ⟨hp, hact⟩ := setAxis_zeroDuty (a := .rest) (by decide) s
    have hoff : driveEn (setAxis .rest s) = false := by simp [driveEn]
    have hseen : (setAxis .rest s).sup.readySeen = false := by
      have : (setAxis .rest s).sup.readySeen = (driveEn (setAxis .rest s) && s.sup.readySeen) := by
        simp [setAxis, followDrive_readySeen, presenceIn]
      rw [this, hoff]; rfl
    rw [he, answers_next]
    refine ⟨by simp, ?_, ⟨by simpa using hoff, by simpa using hp, by simpa using hact, by simpa using hseen⟩, by simp,
      by simp, by simp, by simp, by simp, by simp, by simp⟩
    rw [finish_seq]
    exact restFollow_stopped _ (by simp)
  · have he : exec .brakeSetTimeout s = .next (finish (raiseBrakeSet s)) := if_pos ⟨ha, hb⟩
    have htrip : ∃ v : State, raiseBrakeSet s = enterTripped (.fault .brakeSet) v ∧ TripFrame s v ∧ v.seq = s.seq ∧
        v.ctl = s.ctl ∧ v.sup.latched = insertCondition .brakeSet s.sup.latched ∧
        (v.sup.present.contains .brakeSet = (s.inp.brakeReleased || isPresent s .brakeSet)) := by
      unfold raiseBrakeSet
      dsimp only
      split
      · rename_i hr
        exact ⟨_, rfl, ⟨rfl, rfl, rfl, rfl, rfl⟩, rfl, rfl, rfl, by simp [hr, latch, markPresent]⟩
      · rename_i hr
        exact ⟨_, rfl, ⟨rfl, rfl, rfl, rfl, rfl⟩, rfl, rfl, rfl, by simp [hr, latch, isPresent]⟩
    obtain ⟨v, hv, ⟨hbase, hstill, hpath, hguard, hmarks⟩, hseq, hctl, hlatched, hpresent⟩ := htrip
    obtain ⟨hb', hst', hp', hg', hm'⟩ := enterTripped_frame (.fault .brakeSet) v
    rw [he, hv, answers_next]
    refine ⟨⟨by simp, by simp [seqIn], ?_, by simp [brakeRel, brakeRelIn], by simp [hlatched], by simp, by simp, by simp,
      by simp [setAxis, captureIn]⟩, ?_, ?_, ?_, fun hl hes hd => ?_⟩
    · simp [seqIn, restFollow_stopped]
    · rw [finish_tripFrame]
      exact ⟨hb'.trans hbase, hst'.trans hstill, hp'.trans hpath, hg'.trans hguard, hm'.trans hmarks⟩
    · rw [finish_endedByTrip]
      have hrem (x : CueContext) : remainingMm v x = remainingMm s x := by
        have hs' : v.gen.s = s.gen.s := congrArg (·.1) hpath
        simp [remainingMm, hs']
      intro x hx hr ha hh
      have := enterTripped_ended .brakeSet v x (by rwa [hctl]) hr (by rwa [hctl]) (by rwa [hctl])
      rwa [hrem] at this
    · rw [← hpresent]
      simp [isPresent, presenceIn]
    · have hinp : v.inp = s.inp := ((base_eq_iff s v).1 hbase).2.2.2.2.1
      have hinp' : (enterTripped (.fault .brakeSet) v).inp = v.inp := ((base_eq_iff _ _).1 hb').2.2.2.2.1
      rw [finish_driveEn]
      simp only [isLatched, List.contains_eq_mem, decide_eq_false_iff_not, List.any_eq_false] at hes hd
      simp [driveEn, hinp', hinp, hl, trippedHolding, isLatched, hlatched, hes]
      exact ⟨rfl, fun d hd' => by simpa using hd d hd'⟩

/-! ## CLEAR -/

/-- What a CLEAR leaves latched (R150). -/
def keptLatched (s : State) : List Condition := s.sup.latched.filter fun c => s.sup.present.contains c

theorem dropAbsent_eq (s : State) : dropAbsent s = s.onSup fun p => { p with latched := keptLatched s } := rfl

theorem answer_line (h : Hdr) (k : RequestKind) (r : ReplyResult) (d : Nat) (s : State) :
    (answer h k r d s).line =
      { s.line with replies := s.line.replies ++ [⟨0, none, .reply ⟨h.sender, k, h.seq, r, d⟩⟩] } := rfl

theorem exec_clear {h : Hdr} {set : StationSet} (ht : requestTaken s h = true) :
    exec (.clear h set) s = .next (finish (answer h .clear (clearResult s) 0 (clearAct s))) := if_pos ht

/-- A frame addressed to 0 is no request to this axis. -/
theorem requestTaken_broadcast {h : Hdr} (hc : consoleFrameTaken s h = true) (h0 : h.addressee = 0) :
    requestTaken s h = false := by
  have hstation : axisStation s.station = true := by
    simp only [consoleFrameTaken, addressed, Bool.and_eq_true] at hc
    exact hc.1.2
  simp only [axisStation, Bool.and_eq_true, decide_eq_true_eq] at hstation
  have : h.addressee ≠ s.station := by omega
  simp [requestTaken, this]

theorem clearAct_stopping (h : stoppingToTrip s = true) : clearAct s = s := if_pos h

theorem clearAct_running (h : stoppingToTrip s = false) (ha : s.seq.axis ≠ .tripped) : clearAct s = dropAbsent s := by
  have ha' : (dropAbsent s).seq.axis ≠ .tripped := ha
  rw [clearAct, h, if_neg (by decide)]
  exact if_neg ha'

theorem stoppingToTrip_tripped (ha : s.seq.axis = .tripped) : stoppingToTrip s = false := by simp [stoppingToTrip, ha]

/-- The effect of a CLEAR that leaves a condition latched on a TRIPPED axis (R2, R142, R150). -/
def clearHeld (s : State) : State :=
  let t := followDrive (dropAbsent s)
  if t.inp.driveReady then seeReady t else t

theorem clearAct_tripped (ha : s.seq.axis = .tripped) :
    clearAct s = if keptLatched s = [] then setAxis .rest (dropAbsent s) else clearHeld s := by
  have ha' : (dropAbsent s).seq.axis = .tripped := ha
  have hk : (dropAbsent s).sup.latched.isEmpty = (keptLatched s).isEmpty := rfl
  rw [clearAct, stoppingToTrip_tripped ha, if_neg (by decide)]
  simp only [if_pos ha', hk, List.isEmpty_iff]
  rfl

theorem clearResult_running (h : stoppingToTrip s = false) :
    clearResult s = if keptLatched s = [] then .done else .stillActive := by
  have hk : (dropAbsent s).sup.latched.isEmpty = (keptLatched s).isEmpty := rfl
  rw [clearResult, h, if_neg (by decide), hk]
  simp only [List.isEmpty_iff]

/-- A TRIPPED axis whose latched set a CLEAR empties, at REST with the drive off (R21, R150). -/
def RestedFrom (s t : State) : Prop :=
  t.seq.axis = .rest ∧ t.sup.latched = [] ∧ driveEn t = false ∧ brakeRel t = false ∧ t.meas.pendingDuty = 2048 ∧
    t.meas.activeDuty = 2048 ∧ t.ctl = s.ctl ∧ t.peers = s.peers ∧ t.guard = s.guard ∧
    senses t.meas = senses s.meas ∧ path t.gen = path s.gen ∧ base t = base s

theorem restedFrom_setAxis (hk : keptLatched s = []) : RestedFrom s (setAxis .rest (dropAbsent s)) := by
  obtain ⟨hp, ha⟩ := setAxis_zeroDuty (a := .rest) (by decide) (dropAbsent s)
  refine ⟨by simp, by rw [setAxis_latched]; exact hk, by simp [driveEn], by simp [brakeRel, brakeRelIn], hp, ha, ?_, ?_, ?_, ?_, ?_, ?_⟩
  · rw [setAxis_ctl, contextIn_other _ _ (by decide)]; rfl
  · rw [setAxis_peers]; rfl
  · rw [setAxis_guard]; rfl
  · rw [setAxis_senses]; rfl
  · rw [setAxis_gen]; rfl
  · rw [setAxis_base]; rfl

theorem RestedFrom.finish (h : RestedFrom s u) : RestedFrom s (finish u) := by
  simpa [RestedFrom] using h

/-- Finding DRIVE_READY asserted sets the ready-seen flag where the drive is on (R142). -/
theorem seeReady_eq (s : State) : seeReady s = s.onSup fun p => { p with readySeen := driveEn s || p.readySeen } := by
  unfold seeReady
  cases driveEn s <;> rfl

theorem clearHeld_eq (s : State) :
    ∃ b, clearHeld s = (followDrive (dropAbsent s)).onSup fun p => { p with readySeen := b } := by
  unfold clearHeld
  dsimp only
  split
  · exact ⟨_, seeReady_eq _⟩
  · exact ⟨_, rfl⟩

/-- A CLEAR that leaves a condition latched changes the latched set, the duty and the ready-seen flag. -/
theorem clearHeld_keeps (s : State) :
    (clearHeld s).seq = s.seq ∧ (clearHeld s).sup.latched = keptLatched s ∧ (clearHeld s).ctl = s.ctl ∧
      (clearHeld s).line = s.line ∧ driveEn (clearHeld s) = driveEn (dropAbsent s) ∧ (clearHeld s).peers = s.peers ∧
      (clearHeld s).guard = s.guard ∧ (clearHeld s).gen = s.gen ∧ senses (clearHeld s).meas = senses s.meas ∧
      base (clearHeld s) = base s := by
  obtain ⟨b, hb⟩ := clearHeld_eq s
  rw [hb]
  exact ⟨followDrive_seq _, followDrive_latched _, followDrive_ctl _, followDrive_line _, followDrive_driveEn _,
    followDrive_peers _, followDrive_guard _, followDrive_gen _, congrArg (·.1) (followDrive_still (dropAbsent s)),
    followDrive_base _⟩

/-- Settles O43. -/
theorem clearAnswersAndRests : Obligations.ClearAnswersAndRests := by
  intro s h set hs
  refine ⟨fun ht hstop => ?_, fun ht hstop ha => ?_, fun ht ha hk => ?_, fun ht ha hk => ?_, fun hc h0 hin ha hk => ?_,
    fun hc h0 hin => ?_⟩
  · have hr : clearResult s = .stillActive := if_pos hstop
    rw [exec_clear ht, clearAct_stopping hstop, hr]
    exact congrArg _ (finish_of hs rfl rfl rfl rfl rfl)
  · rw [exec_clear ht, clearAct_running hstop ha, clearResult_running hstop]
    exact congrArg _ (finish_of hs rfl rfl rfl rfl rfl)
  · have hk' : keptLatched s = [] := hk
    rw [exec_clear ht, clearAct_tripped ha, if_pos hk', clearResult_running (stoppingToTrip_tripped ha), if_pos hk',
      answers_next]
    refine ⟨RestedFrom.finish (restedFrom_setAxis hk'), ?_⟩
    rw [finish_replies]
    simp [answer, queueReply, dropAbsent, noteChange]
  · have hk' : keptLatched s ≠ [] := hk
    obtain ⟨h1, h2, h3, h4, h5, h6, h7, h8, h9, h10⟩ := clearHeld_keeps s
    rw [exec_clear ht, clearAct_tripped ha, if_neg hk', clearResult_running (stoppingToTrip_tripped ha), if_neg hk']
    refine answers_finish hs ?_ h1 ?_ ?_ ?_ ⟨h1, h2, h3, ?_, ?_, h6, h7, h8, h9, h10⟩
    · exact congrArg (·.statusDue) h4
    · exact congrArg (·.armed.isEmpty) h3
    · exact congrArg (·.ctx.isNone) h3
    · exact congrArg (·.live) ((base_eq_iff _ _).1 h10).2.2.2.2.2.2.1
    · rw [answer_line, h4]
    · refine Eq.trans h5 ?_
      simp only [driveEn, dropAbsent_eq, onSup_seq, ha, onSup_inp, trippedHolding, isLatched, onSup_sup,
        Bool.and_assoc]
      rfl
  · have hk' : keptLatched s = [] := hk
    have ht := requestTaken_broadcast hc h0
    have he : exec (.clear h set) s = .next (finish (clearAct s)) := by
      simp [exec, execClear, ht, hc, h0, hin]
    rw [he, clearAct_tripped ha, if_pos hk', answers_next]
    refine ⟨RestedFrom.finish (restedFrom_setAxis hk'), ?_⟩
    rw [finish_replies]
    simp [dropAbsent, noteChange]
  · have ht := requestTaken_broadcast hc h0
    simp [exec, execClear, ht, hin]

end events

end Sys2Proof.Machine


/-! PROOFS. The peer table: STATUS frames, ageing, and the controlled stops that a member can cause. -/

namespace Sys2Proof.Machine

section peers
variable {s t u : State} {o : CueOutcome} {x : CueContext}

/-! ## A controlled stop of a moving axis -/

/-- The cue of a moving axis is stopped CONTROLLED toward PARKED, ENDING with a reason; nothing else changes (R14). -/
def StopsFor (o : CueOutcome) (x : CueContext) (s t : State) : Prop :=
  (t.seq.axis = .stopping ∧ t.seq.stopKind = .controlled ∧ t.seq.dest = .parked) ∧
    t.ctl = { s.ctl with ctx := some { x with phase := .ending, endReason := some o } } ∧
    t.sup.latched = s.sup.latched ∧ t.peers = s.peers ∧ t.guard = s.guard ∧ base t = base s ∧ still t = still s ∧
    path t.gen = path s.gen ∧ t.line.marks = s.line.marks ∧ t.gen.fired = s.gen.fired ∧ t.seq.startReq = .none ∧
    t.seq.brake = none

theorem controlledEnd_stopsFor (hx : s.ctl.ctx = some x) (hp : x.phase ≠ .ending) (ha : s.seq.axis = .moving) :
    StopsFor o x s (controlledEnd o s) := by
  have he : controlledEnd o s = enterStopping .controlled .parked (setEnding o s) := by
    simp [controlledEnd, hx, endable, hp, controlledPath, ha]
  rw [he]
  refine ⟨enterStopping_axis _ _ _, ?_, ?_, ?_, ?_, by simp, by simp, ?_, ?_, ?_, ?_, ?_⟩
  all_goals simp [enterStopping, setEnding, onCtx, hx, noteChange, seqIn]

theorem StopsFor.finish (h : StopsFor o x s t) : StopsFor o x s (finish t) := by
  simpa [StopsFor] using h

/-! ## STATUS frames -/

theorem exec_statusFrame {h : Hdr} {payload : List Byte} {c : PeerContents} (ht : axisFrameTaken s h = true)
    (hc : parseStatus payload = some c) : exec (.statusFrame h payload) s = .next (finish (takeStatus h.sender c s)) := by
  simp [exec, execStatusFrame, ht, hc]

theorem memberContents_updatePeer {ps : List Peer} {n : Nat} (c : PeerContents) (h : hasPeer ps n = true) :
    memberContents (updatePeer n c ps) n = some c := by
  induction ps with
  | nil => simp [hasPeer] at h
  | cons p ps ih =>
    by_cases hp : p.station = n
    · simp [memberContents, findPeer, updatePeer, hp]
    · have h' : hasPeer ps n = true := by simpa [hasPeer, hp] using h
      have := ih h'
      simpa [memberContents, findPeer, updatePeer, hp] using this

theorem find_notedViews (cue : Nat) (landing : Bool) (m : Nat) (c : PeerContents) (l : List (Nat × MemberView)) :
    (notedViews cue landing m c l).find? (fun v => decide (v.1 = m)) =
      (l.find? fun v => decide (v.1 = m)).map fun v => (v.1, nextView cue landing c v.2) := by
  induction l with
  | nil => rfl
  | cons v l ih =>
    by_cases hv : v.1 = m
    · simp [notedViews, hv]
    · simpa [notedViews, hv] using ih

/-- The member views of a context after an update notice for a member (R97). -/
def viewsAfter (member : Nat) (c : PeerContents) (x : CueContext) (s : State) : List (Nat × MemberView) :=
  notedViews x.record.cue.number (ownLanding s.store.live x.record.cue s.gen.s) member c x.views

/-- The state in which an update notice for a member has changed its view, before the group test (R90, R97). -/
def noticed (member : Nat) (c : PeerContents) (x : CueContext) (s : State) : State :=
  (s.onPeers (updatePeer member c)).onCtl fun q => { q with ctx := some { x with views := viewsAfter member c x s } }

theorem takeStatus_running {n : Nat} {c : PeerContents} (hp : hasPeer s.peers n = true) (hx : s.ctl.ctx = some x) :
    takeStatus n c s = groupTest (noticed n c x s) n := by
  have hx' : (s.onPeers (updatePeer n c)).ctl.ctx = some x := hx
  simp only [takeStatus, if_pos hp, noteUpdate, hx', onCtx]
  simp only [State.onCtl, onPeers_ctl, hx, Option.map_some]
  rfl

/-- The group test of a member heard just now: it ends the cue where phase, view and contents break the group (R103). -/
theorem groupTest_noticed {n : Nat} {c : PeerContents} (hp : hasPeer s.peers n = true) :
    groupTest (noticed n c x s) n =
      if x.phase = .running ∧ ∃ v, viewOf x n = some v ∧ breaksGroup x.record.cue.number c
          (nextView x.record.cue.number (ownLanding s.store.live x.record.cue s.gen.s) c v) = true then
        controlledEnd .groupBroken (noticed n c x s) else noticed n c x s := by
  have hctx : (noticed n c x s).ctl.ctx = some { x with views := viewsAfter n c x s } := rfl
  have hpeers : (noticed n c x s).peers = updatePeer n c s.peers := rfl
  rw [groupTest, hctx]
  simp only [hpeers, memberContents_updatePeer c hp, viewsAfter, find_notedViews, viewOf]
  rcases Option.eq_none_or_eq_some (x.views.find? fun v => decide (v.1 = n)) with hv | ⟨v, hv⟩
  · simp [hv]
  · simp [hv]

theorem nextView_kept {cue : Nat} {landing : Bool} {c : PeerContents} {v : MemberView}
    (h : nextView cue landing c v = .finished ∨
      (c.axis ≠ .tripped ∧ (showsContext c cue = true ∨ (nextView cue landing c v = .armed ∧ showsArmed c cue = true)))) :
    breaksGroup cue c (nextView cue landing c v) = false := by
  rcases h with h | ⟨ht, h | ⟨h, ha⟩⟩
  · rw [h]; rfl
  · cases nextView cue landing c v <;> simp [breaksGroup, ht, h]
  · rw [h]; simp [breaksGroup, ht, ha]

/-- Settles O29. -/
theorem statusFrameUpdatesPeer : Obligations.StatusFrameUpdatesPeer := by
  intro s h payload hs ht
  refine ⟨fun hc => ?_, fun hp => ?_, fun c hc hp => ⟨fun hx => ?_, fun x hx => ?_⟩⟩
  · simp [exec, execStatusFrame, ht, hc]
  · cases hc : parseStatus payload with
    | none => simp [exec, execStatusFrame, ht, hc]
    | some c =>
      have he : takeStatus h.sender c s = s := if_neg (by simp [hp])
      rw [exec_statusFrame ht hc, he, finish_settled hs]
  · have hx' : (s.onPeers (updatePeer h.sender c)).ctl.ctx = none := hx
    have he : takeStatus h.sender c s = s.onPeers (updatePeer h.sender c) := by
      rw [takeStatus, if_pos hp, noteUpdate, hx']
    rw [exec_statusFrame ht hc, he]
    exact congrArg _ (finish_of hs rfl rfl rfl rfl rfl)
  · dsimp only
    intro hkept
    have hno : ¬(x.phase = .running ∧ ∃ v, viewOf x h.sender = some v ∧ breaksGroup x.record.cue.number c
        (nextView x.record.cue.number (ownLanding s.store.live x.record.cue s.gen.s) c v) = true) := by
      rintro ⟨hrun, v, hv, hbreak⟩
      rcases hkept with hkept | hkept
      · exact hkept hrun
      · have := nextView_kept (landing := ownLanding s.store.live x.record.cue s.gen.s) (v := v) (hkept v hv)
        rw [this] at hbreak
        exact absurd hbreak (by decide)
    rw [exec_statusFrame ht hc, takeStatus_running hp hx, groupTest_noticed hp, if_neg hno]
    exact congrArg _ (finish_of (t := noticed h.sender c x s) hs rfl rfl rfl (by simp [noticed, hx]) rfl)

/-- Settles O30. -/
theorem memberLeavingBreaksGroup : Obligations.MemberLeavingBreaksGroup := by
  intro s h payload c x hs ht hc hp hx hrun ha hview hshown hprog hland
  have hbreak : x.phase = .running ∧ ∃ v, viewOf x h.sender = some v ∧ breaksGroup x.record.cue.number c
      (nextView x.record.cue.number (ownLanding s.store.live x.record.cue s.gen.s) c v) = true :=
    ⟨hrun, .cue, hview, by simp [nextView, hshown, hprog, hland, breaksGroup]⟩
  have hctx : (noticed h.sender c x s).ctl.ctx = some { x with views := viewsAfter h.sender c x s } := rfl
  obtain ⟨⟨h1, h2, h3⟩, hctl, -, -, -, hbase, hstill, hpath, -⟩ :=
    (controlledEnd_stopsFor (o := .groupBroken) hctx (by simp [hrun]) ha).finish
  rw [exec_statusFrame ht hc, takeStatus_running hp hx, groupTest_noticed hp, if_pos hbreak, answers_next]
  refine ⟨h1, h2, h3, ?_, ?_, hbase, hstill, hpath⟩
  · rw [hctl]; rfl
  · rw [hctl]; rfl

/-! ## Ageing -/

theorem agePeer_unheard {S : Setup} {p : Peer} (h : p.fresh = .unheard) : agePeer S p = p := by simp [agePeer, h]

theorem agePeer_heard {S : Setup} {p : Peer} (h : p.fresh ≠ .unheard) :
    agePeer S p = { p with age := min (p.age + 1) 65535, fresh := freshnessOfAge S (min (p.age + 1) 65535) } := by
  unfold agePeer
  split
  · exact absurd ‹_› h
  all_goals rfl

theorem freshnessOfAge_lost (S : Setup) (n : Nat) : freshnessOfAge S n = .lost ↔ S.lostLimit < n := by
  unfold freshnessOfAge
  split
  · simp_all
  · split <;> simp_all

theorem freshnessOfAge_stale (S : Setup) (n : Nat) :
    freshnessOfAge S n = .stale ↔ n ≤ S.lostLimit ∧ S.staleLimit < n := by
  unfold freshnessOfAge
  split
  · simp_all
  · split <;> simp_all

/-- The part with every entry aged (R89). -/
def aged (s : State) : State := s.onPeers fun ps => ps.map (agePeer s.store.live)

theorem exec_peerAgeing (hh : s.held = none) :
    exec .peerAgeing s = .next (finish ((newlyLost s.store.live s.peers).foldl noteLoss (aged s))) :=
  if_neg (by simp [hh])

/-- The loss of a station ends the cue: it is a member whose view is not FINISHED (R102). -/
def LossEnds (x : CueContext) (n : Nat) : Prop := ∃ v, viewOf x n = some v ∧ v ≠ .finished

theorem noteLoss_spared {n : Nat} (h : ∀ x ∈ s.ctl.ctx, ¬LossEnds x n) : noteLoss s n = s := by
  unfold noteLoss
  split
  · rfl
  · rename_i x hx
    split
    · rfl
    · rename_i v hv
      split
      · rfl
      · rename_i hne
        exact absurd ⟨v, hv, hne⟩ (h x hx)

theorem noteLoss_ends {n : Nat} (hx : s.ctl.ctx = some x) (h : LossEnds x n) : noteLoss s n = controlledEnd .peerLost s := by
  obtain ⟨v, hv, hne⟩ := h
  simp [noteLoss, hx, hv, hne]

theorem controlledEnd_ending (hx : s.ctl.ctx = some x) (hp : x.phase = .ending) : controlledEnd o s = s := by
  simp [controlledEnd, hx, endable, hp]

theorem foldl_noteLoss_ending (hx : s.ctl.ctx = some x) (hp : x.phase = .ending) (l : List Nat) : l.foldl noteLoss s = s := by
  induction l with
  | nil => rfl
  | cons n l ih =>
    have : noteLoss s n = s := by
      by_cases hn : LossEnds x n
      · rw [noteLoss_ends hx hn, controlledEnd_ending hx hp]
      · exact noteLoss_spared fun y hy => by rw [hx] at hy; cases hy; exact hn
    rw [List.foldl_cons, this, ih]

theorem foldl_noteLoss_spared {l : List Nat} (h : ∀ n ∈ l, ∀ x ∈ s.ctl.ctx, ¬LossEnds x n) : l.foldl noteLoss s = s := by
  induction l with
  | nil => rfl
  | cons n l ih =>
    rw [List.foldl_cons, noteLoss_spared (h n (by simp)), ih fun k hk => h k (by simp [hk])]

/-- On a moving axis the first loss that ends the cue stops it, and the later ones find it ENDING (R74, R102). -/
theorem foldl_noteLoss_stops {l : List Nat} (hx : s.ctl.ctx = some x) (hp : x.phase ≠ .ending) (ha : s.seq.axis = .moving)
    (h : ∃ n ∈ l, LossEnds x n) : l.foldl noteLoss s = controlledEnd .peerLost s := by
  induction l with
  | nil => obtain ⟨n, hn, -⟩ := h; cases hn
  | cons n l ih =>
    rw [List.foldl_cons]
    by_cases hn : LossEnds x n
    · obtain ⟨-, hctl, -⟩ := controlledEnd_stopsFor (o := .peerLost) hx hp ha
      rw [noteLoss_ends hx hn]
      exact foldl_noteLoss_ending (congrArg (·.ctx) hctl) rfl l
    · rw [noteLoss_spared fun y hy => by rw [hx] at hy; cases hy; exact hn]
      obtain ⟨k, hk, hke⟩ := h
      rcases List.mem_cons.1 hk with rfl | hk
      · exact absurd hke hn
      · exact ih ⟨k, hk, hke⟩

/-- Settles O57. -/
theorem ageingMakesLost : Obligations.AgeingMakesLost := by
  intro s hs hh
  refine ⟨fun p _ hp => ?_, fun p _ hp => agePeer_unheard hp, fun hspared => ?_, fun x n v hx hrun ha hn hv hne => ?_⟩
  · rw [agePeer_heard hp]
    exact ⟨rfl, freshnessOfAge_lost _ _, freshnessOfAge_stale _ _, rfl⟩
  · have hno : (newlyLost s.store.live s.peers).foldl noteLoss (aged s) = aged s := by
      refine foldl_noteLoss_spared fun n hn x hx => ?_
      rintro ⟨v, hv, hne⟩
      simp only [viewOf, Option.map_eq_some_iff] at hv
      obtain ⟨w, hw, rfl⟩ := hv
      exact hne (hspared n hn x hx w (List.mem_of_find?_eq_some hw) (by simpa using List.find?_some hw))
    rw [exec_peerAgeing hh, hno]
    exact congrArg _ (finish_of hs rfl rfl rfl rfl rfl)
  · have hp : x.phase ≠ .ending := by rw [hrun]; decide
    obtain ⟨⟨h1, h2, h3⟩, hctl, -, hpeers, hguard, hbase, hstill, hpath, -⟩ :=
      (controlledEnd_stopsFor (s := aged s) (o := .peerLost) hx hp ha).finish
    rw [exec_peerAgeing hh, foldl_noteLoss_stops (s := aged s) hx hp ha ⟨n, hn, v, hv, hne⟩, answers_next]
    exact ⟨h1, h2, h3, hctl, hpeers, hguard, hbase, hstill, hpath⟩

end peers

end Sys2Proof.Machine


/-! PROOFS. Ends of cues: the hold limits, the refused recovery, STOP by the state of the axis, and the line reset. -/

namespace Sys2Proof.Machine

section ends
variable {s t u : State} {o : CueOutcome} {x : CueContext}

/-! ## Disarmings as one record -/

/-- Several cues disarmed: the entries leave, the last one is the last event, the interests are released (R63). -/
theorem foldl_disarm_eq (r : DisarmReason) (l : List Nat) (s : State) :
    l.foldl (disarm r) s =
      { s with
        ctl := { s.ctl with
          armed := s.ctl.armed.filter fun a => !l.contains a.cue
          lastEvent := (l.getLast?.map fun n => CueEvent.disarmed n r).or s.ctl.lastEvent }
        peers := l.foldl (fun ps n => releasePeers n ps) s.peers } := by
  induction l generalizing s with
  | nil => simp
  | cons n l ih =>
    have hlast : ((n :: l).getLast?.map fun n => CueEvent.disarmed n r).or s.ctl.lastEvent =
        (l.getLast?.map fun n => CueEvent.disarmed n r).or (some (.disarmed n r)) := by
      cases l <;> simp [List.getLast?_cons]
    have harmed : ((disarm r s n).ctl.armed.filter fun a => !l.contains a.cue) =
        s.ctl.armed.filter fun a => !(n :: l).contains a.cue := by
      have := (foldl_disarm_armed r l (disarm r s n)).symm.trans (foldl_disarm_armed r (n :: l) s)
      exact this
    rw [List.foldl_cons, ih, hlast, harmed]
    rfl

/-- An end that breaks chains: the cue is ENDED, the PENDING follow cues are disarmed CHAIN_BROKEN (R73, R77). -/
def EndedBy (o : CueOutcome) (x : CueContext) (s t : State) : Prop :=
  (t.guard = s.guard ∧ t.sup.latched = s.sup.latched ∧ base t = base s ∧ still t = still s ∧ path t.gen = path s.gen) ∧
    t.gen.fired = [] ∧ t.sup.recovery = none ∧
    t.ctl = { s.ctl with
      ctx := none
      armed := s.ctl.armed.filter fun a => !(pendingCues s).contains a.cue
      lastEvent := some (match (pendingCues s).getLast? with
        | none => .ended x.record.cue.number o (remainingMm s x)
        | some n => .disarmed n .chainBroken) } ∧
    t.peers = (pendingCues s).foldl (fun ps n => releasePeers n ps) (releasePeers x.record.cue.number s.peers)

theorem endedBy_endCue (hx : s.ctl.ctx = some x) (ho : runsOn o = false) : EndedBy o x s (endCue o s) := by
  have hp : pendingCues (removeContext x o (remainingMm s x) s) = pendingCues s := rfl
  have he : endCue o s = (pendingCues s).foldl (disarm .chainBroken) (removeContext x o (remainingMm s x) s) := by
    simp [endCue, hx, moveChains, ho, hp]
  have hevent : ((pendingCues s).getLast?.map fun n => CueEvent.disarmed n .chainBroken).or
      (some (.ended x.record.cue.number o (remainingMm s x))) =
        some (match (pendingCues s).getLast? with
          | none => .ended x.record.cue.number o (remainingMm s x)
          | some n => .disarmed n .chainBroken) := by
    cases (pendingCues s).getLast? <;> rfl
  refine ⟨⟨by simp, ?_, by simp, by simp, ?_⟩, ?_, ?_, ?_, ?_⟩
  all_goals rw [he, foldl_disarm_eq]
  · rfl
  · rfl
  · rfl
  · rfl
  · simp only [removeContext_ctl]
    rw [hevent]
  · rfl

theorem EndedBy.onSeq (h : EndedBy o x s t) (f : Sequencer → Sequencer) : EndedBy o x s (t.onSeq f) := h

theorem EndedBy.setAxis (h : EndedBy o x s t) {a : AxisState} (ha : a ≠ .moving) : EndedBy o x s (setAxis a t) := by
  obtain ⟨⟨hg, hl, hb, hst, hp⟩, hf, hr, hc, hps⟩ := h
  refine ⟨⟨by simpa using hg, by simpa using hl, by simpa using hb, by simpa using hst, by simpa using hp⟩,
    by simpa using hf, setAxis_recovery a t hr, ?_, by simpa using hps⟩
  rw [setAxis_ctl, contextIn_other _ _ ha, hc]

theorem EndedBy.finish (h : EndedBy o x s t) : EndedBy o x s (finish t) := by
  simpa [EndedBy] using h

/-- A brake set toward PARKED, confirmed where BRAKE_FB reads set (R16). -/
theorem EndedBy.enterSetting (h : EndedBy o x s t) : EndedBy o x s (enterSetting .parked t) := by
  unfold Machine.enterSetting
  dsimp only
  split
  · exact (h.setAxis (by decide)).onSeq _
  · exact ((h.setAxis (by decide)).onSeq _).setAxis (by decide)

theorem controlledEnd_endable (hx : s.ctl.ctx = some x) (hp : x.phase ≠ .ending) : controlledEnd o s = controlledPath o s := by
  simp [controlledEnd, hx, endable, hp]

/-! ## Hold limits -/

/-- The cue has ended where nothing was PENDING, the axis PARKED. -/
theorem parked_of_held (hx : s.ctl.ctx = some x) (ho : runsOn o = false) (hp : pendingCues s = []) :
    let t := finish (setAxis .parked (endCue o s))
    t.seq.axis = .parked ∧ t.seq.startReq = .none ∧
      t.ctl = { s.ctl with ctx := none, lastEvent := some (.ended x.record.cue.number o (remainingMm s x)) } ∧
      t.sup.recovery = none ∧ t.sup.latched = s.sup.latched ∧ t.peers = releasePeers x.record.cue.number s.peers ∧
      t.guard = s.guard ∧ base t = base s ∧ still t = still s ∧ path t.gen = path s.gen := by
  obtain ⟨⟨hg, hl, hb, hst, hpa⟩, -, hr, hc, hps⟩ :=
    ((endedBy_endCue hx ho).setAxis (a := .parked) (by decide)).finish
  refine ⟨by simp, by simp [seqIn], ?_, hr, hl, ?_, hg, hb, hst, hpa⟩
  · rw [hc]; simp [hp]
  · rw [hps, hp]; rfl

theorem controlledEnd_resting (hx : s.ctl.ctx = some x) (hp : x.phase ≠ .ending)
    (ha : s.seq.axis = .suspended ∨ s.seq.axis = .recovering) : controlledEnd o s = setAxis .parked (endCue o s) := by
  rcases ha with ha | ha <;> simp [controlledEnd_endable hx hp, controlledPath, ha]

theorem inPhase_of {p : CuePhase} (hx : s.ctl.ctx = some x) (hp : x.phase = p) : inPhase s p = true := by
  simp [inPhase, hx, hp]

theorem exec_holdLimit (hx : s.ctl.ctx = some x) (hp : x.phase = .running) :
    exec .holdLimitExceeded s = .next (finish (passHoldLimit s)) := if_pos (inPhase_of hx hp)

theorem exec_recoveryWait {r : Recovery} (hx : s.ctl.ctx = some x) (hp : x.phase = .starting) (hr : s.sup.recovery = some r)
    (ha : s.seq.axis = .recovering) : exec .recoveryWaitExceeded s = .next (finish (refuseRecovery s)) :=
  if_pos (by simp [waitCounts, inPhase_of hx hp, hr, ha])

theorem passHoldLimit_recovering (ha : s.seq.axis = .recovering) : passHoldLimit s = refuseRecovery s := by
  simp [passHoldLimit, ha]

theorem refuseRecovery_absent {r : Recovery} (hr : s.sup.recovery = some r) (hc : ∀ c ∈ r.conds, isPresent s c = false) :
    refuseRecovery s = controlledEnd .holdLimit s := by
  have : r.conds.filter (isPresent s) = [] := List.filter_eq_nil_iff.2 fun c hm => by simp [hc c hm]
  simp [refuseRecovery, hr, this]

/-- The conditions of a refused recovery latched, its record gone (R147). -/
def recoveryRefused (l : List Condition) (s : State) : State :=
  (l.foldl (fun t d => latch d t) s).onSup fun p => { p with recovery := none }

theorem refuseRecovery_present {r : Recovery} {c : Condition} {rest : List Condition} (hr : s.sup.recovery = some r)
    (hc : r.conds.filter (isPresent s) = c :: rest) (ha : s.seq.axis = .recovering) :
    refuseRecovery s = enterTripped (.fault c) (recoveryRefused (c :: rest) s) := by
  have hax : (recoveryRefused (c :: rest) s).seq.axis = .recovering := by
    rw [recoveryRefused, foldl_latch]; exact ha
  have he : refuseRecovery s = fastLatch c (recoveryRefused (c :: rest) s) := by
    simp only [refuseRecovery, hr, hc]
    rfl
  rw [he, fastLatch, hax]

/-- Settles O40. -/
theorem holdLimitEndsCue : Obligations.HoldLimitEndsCue := by
  intro s x hs hx
  refine ⟨fun hp hrun ha => ?_, fun r hp hr ha hc => ⟨fun hrun => ?_, fun hstart => ?_⟩, fun r c rest hr ha hc => ?_⟩
  · have he : passHoldLimit s = controlledEnd .holdLimit s := by simp [passHoldLimit, ha]
    rw [exec_holdLimit hx hrun, he, controlledEnd_resting hx (by simp [hrun]) (.inl ha), answers_next]
    exact parked_of_held hx rfl hp
  · rw [exec_holdLimit hx hrun, passHoldLimit_recovering ha, refuseRecovery_absent hr hc,
      controlledEnd_resting hx (by simp [hrun]) (.inr ha), answers_next]
    exact parked_of_held hx rfl hp
  · rw [exec_recoveryWait hx hstart hr ha, refuseRecovery_absent hr hc,
      controlledEnd_resting hx (by simp [hstart]) (.inr ha), answers_next]
    exact parked_of_held hx rfl hp
  · have hv : recoveryRefused (c :: rest) s = s.onSup fun p =>
        { p with latched := (c :: rest).foldl (fun l d => insertCondition d l) p.latched, recovery := none } := by
      rw [recoveryRefused, foldl_latch]; rfl
    have hrefused : let t := finish (enterTripped (.fault c) (recoveryRefused (c :: rest) s))
        t.seq.axis = .tripped ∧ brakeRel t = false ∧
          t.sup.latched = (c :: rest).foldl (fun l d => insertCondition d l) s.sup.latched ∧ t.sup.recovery = none ∧
          t.ctl.ctx = none ∧ t.ctl.armed = [] ∧ EndedByTrip c s t ∧ TripFrame s t := by
      rw [hv]
      refine ⟨by simp, by simp [brakeRel, brakeRelIn], by simp, ?_, by simp, by simp, ?_, ?_⟩
      · rw [finish_sup]; exact enterTripped_recovery _ _ rfl
      · rw [finish_endedByTrip]; exact enterTripped_ended c (s.onSup _)
      · rw [finish_tripFrame]; exact enterTripped_frame _ (s.onSup _)
    refine ⟨fun hrun => ?_, fun hstart => ?_⟩
    · rw [exec_holdLimit hx hrun, passHoldLimit_recovering ha, refuseRecovery_present hr hc ha, answers_next]
      exact hrefused
    · rw [exec_recoveryWait hx hstart hr ha, refuseRecovery_present hr hc ha, answers_next]
      exact hrefused

/-! ## STOP -/

theorem exec_stop {h : Hdr} {set : StationSet} (ht : setFrameTaken s h set = true) (hx : s.ctl.ctx = some x)
    (hp : x.phase ≠ .ending) : exec (.stop h set) s = .next (finish (controlledEnd .abandoned s)) :=
  if_pos (by simp [ht, hx, endable, hp])

theorem exec_stop_idle {h : Hdr} {set : StationSet} (hx : ∀ x ∈ s.ctl.ctx, x.phase = .ending) :
    exec (.stop h set) s = .next s := by
  refine if_neg ?_
  cases hc : s.ctl.ctx with
  | none => simp
  | some x => simp [endable, hx x (by simp [hc])]

/-- A STOP during a FAST stop leaves the stop, away from RECOVERING, and ends the cue with it (R74, R145). -/
theorem stop_fast (hs : Settled s) (hx : s.ctl.ctx = some x) (hp : x.phase ≠ .ending) (ha : s.seq.axis = .stopping) :
    finish (controlledEnd o s) = { s with
      seq := { s.seq with dest := if s.seq.dest = .recovering then .parked else s.seq.dest }
      ctl := { s.ctl with ctx := some { x with phase := .ending, endReason := some o } } } := by
  have he : controlledEnd o s = { s with
      seq := { s.seq with dest := if s.seq.dest = .recovering then .parked else s.seq.dest }
      ctl := { s.ctl with ctx := some { x with phase := .ending, endReason := some o } } } := by
    simp [controlledEnd_endable hx hp, controlledPath, ha, setEnding, onCtx, State.onCtl, State.onSeq, hx]
  rw [he]
  have hr : s.seq.rest = none := settled_rest hs (by simp [restConditions, ha])
  exact finish_busy hs.1 (by simp [restConditions, ha]) hr

/-- Off PARKED an end that only touches the sequencer's start request or destination ends the command where it stands. -/
theorem finish_ended (hs : Settled s) (ha : s.seq.axis ≠ .parked) (f : Sequencer → Sequencer)
    (hf : ∀ q, (f q).axis = q.axis ∧ (f q).rest = q.rest) :
    finish ((endCue o s).onSeq f) = (endCue o s).onSeq f := by
  obtain ⟨hax, hrest⟩ := hf s.seq
  refine finish_busy ?_ ?_ ?_
  · simpa using hs.1
  · simp [restConditions, hax, ha]
  · simp only [onSeq_seq, endCue_seq, hrest]
    exact settled_rest hs (by simp [restConditions, ha])

/-- The brake set after an end: SETTING toward PARKED, or PARKED where BRAKE_FB reads set already (R16). -/
theorem enterSetting_parked (s : State) :
    let t := finish (enterSetting .parked s)
    brakeRel t = false ∧ t.seq.startReq = .none ∧ t.seq.hold = none ∧
      (if s.inp.brakeReleased then
        t.seq.axis = .setting ∧ t.seq.dest = .parked ∧ t.seq.brake = some s.store.live.brakeTime
      else t.seq.axis = .parked ∧ t.seq.brake = none) := by
  by_cases hb : s.inp.brakeReleased = true
  · rw [enterSetting_waits _ _ hb]
    simp [hb, brakeRel, brakeRelIn, seqIn]
  · have hc : enterSetting .parked s = setAxis .parked ((setAxis .setting s).onSeq fun q =>
        { q with dest := .parked, brake := some (setAxis .setting s).store.live.brakeTime }) := by
      simp [enterSetting, hb, confirmSet]
    rw [hc]
    simp [hb, brakeRel, brakeRelIn, seqIn]

/-! ## Line reset -/

/-- Where the generator stands, the guard, the marks of the port and the absence of homing: what the end of a cue and
the loss of enable leave alone in an axis without homing. -/
def Unmoved (s t : State) : Prop :=
  path t.gen = path s.gen ∧ t.guard = s.guard ∧ t.line.marks = s.line.marks ∧ t.line.markLost = s.line.markLost ∧
    t.ctl.homing = none ∧ t.gen.homing = none ∧ t.seq.startReq ≠ .home

theorem Unmoved.setAxis (h : Unmoved s t) (a : AxisState) : Unmoved s (setAxis a t) := by
  obtain ⟨h1, h2, h3, h4, h5, h6, h7⟩ := h
  refine ⟨by simpa using h1, by simpa using h2, by simpa [noteChange] using h3, by simpa [noteChange] using h4,
    by simpa using h5, by simpa using h6, ?_⟩
  rw [setAxis_seq]
  simp only [seqIn]
  split
  · exact h7
  · decide

theorem Unmoved.onSeq (h : Unmoved s t) {f : Sequencer → Sequencer} (hf : (f t.seq).startReq ≠ .home) :
    Unmoved s (t.onSeq f) := by
  obtain ⟨h1, h2, h3, h4, h5, h6, -⟩ := h
  exact ⟨h1, h2, h3, h4, h5, h6, hf⟩

theorem Unmoved.onCtx (h : Unmoved s t) (f : CueContext → CueContext) : Unmoved s (onCtx f t) := h

theorem Unmoved.removeContext (h : Unmoved s t) (x : CueContext) (o : CueOutcome) (n : Nat) :
    Unmoved s (removeContext x o n t) := h

theorem Unmoved.foldl_disarm (h : Unmoved s t) (r : DisarmReason) (l : List Nat) : Unmoved s (l.foldl (disarm r) t) := by
  rw [foldl_disarm_eq]; exact h

theorem Unmoved.endCue (h : Unmoved s t) (o : CueOutcome) : Unmoved s (endCue o t) := by
  unfold Machine.endCue
  split
  · exact h
  · unfold moveChains
    split
    · exact h.removeContext _ _ _
    · exact (h.removeContext _ _ _).foldl_disarm _ _

theorem Unmoved.enterTripped (h : Unmoved s t) (o : CueOutcome) : Unmoved s (enterTripped o t) := by
  have hcue : Unmoved s (tripCue o (Machine.setAxis .tripped t)) := by
    unfold tripCue
    split
    · exact h.setAxis _
    · exact (h.setAxis _).removeContext _ _ _
  have hall : Unmoved s (disarmAll .tripped (tripCue o (Machine.setAxis .tripped t))) := hcue.foldl_disarm _ _
  have hh := hall.2.2.2.2.1
  unfold Machine.enterTripped tripHoming
  rw [hh]
  exact hall

theorem Unmoved.enterSetting (h : Unmoved s t) (d : SetDest) : Unmoved s (enterSetting d t) := by
  have hset : Unmoved s ((Machine.setAxis .setting t).onSeq fun q =>
      { q with dest := d, brake := some (Machine.setAxis .setting t).store.live.brakeTime }) :=
    (h.setAxis _).onSeq (by simp [seqIn])
  unfold Machine.enterSetting
  dsimp only
  split
  · exact hset
  · unfold confirmSet
    split
    · exact hset.setAxis _
    · exact hset.setAxis _
    · exact hset.setAxis _
    · exact hset.enterTripped _

theorem Unmoved.controlledPath (h : Unmoved s t) (o : CueOutcome) : Unmoved s (controlledPath o t) := by
  have hd (f : Sequencer → Sequencer) (hf : ∀ q, (f q).startReq = q.startReq) {v : State} (hv : Unmoved s v) :
      Unmoved s (v.onSeq f) := hv.onSeq (by rw [hf]; exact hv.2.2.2.2.2.2)
  unfold Machine.controlledPath
  split
  case h_1 => exact (h.endCue o).onSeq (by simp)
  case h_2 => exact (h.endCue o).enterSetting _
  case h_3 => exact hd _ (fun _ => rfl) ((h.onCtx _).setAxis _)
  case h_4 => exact (h.endCue o).enterSetting _
  case h_5 => exact (h.endCue o).setAxis _
  case h_6 => exact (h.endCue o).setAxis _
  case h_7 =>
    split
    · exact hd _ (fun _ => rfl) (h.endCue o)
    · exact h.onCtx _
  case h_8 => exact hd _ (fun _ => rfl) (h.onCtx _)
  all_goals exact h.onCtx _

theorem Unmoved.controlledEnd (h : Unmoved s t) (o : CueOutcome) : Unmoved s (controlledEnd o t) := by
  unfold Machine.controlledEnd
  split
  · exact h
  · split
    · exact h.controlledPath o
    · exact h

/-- Without homing, a loss of enable only takes enable (R66). -/
theorem loseHoming_none (hr : s.seq.startReq ≠ .home) (hh : s.ctl.homing = none) (hg : s.gen.homing = none) :
    loseHoming s = s := by
  have hrun (f : HomingRun → HomingRun) : onRun f s = s := by simp [onRun, State.onCtl, hh]; rw [← hh]
  have hmove (f : HomingInputs → HomingInputs) : onHoming f s = s := by simp [onHoming, State.onGen, hg]; rw [← hg]
  unfold loseHoming
  split
  · exact if_neg hr
  · exact if_neg hr
  · rw [hmove, hrun]
  · exact hrun _
  all_goals rfl

/-- Cue control after a line reset: nothing armed, no enable, the override 100 (R80). -/
theorem lineResetCues_eq (h : Unmoved s (controlledEnd .lineReset s)) :
    lineResetCues s = (disarmAll .lineReset (controlledEnd .lineReset s)).onCtl fun c =>
      { c with enableFresh := false, lapse := none, override := 100 } := by
  obtain ⟨-, -, -, -, h5, h6, h7⟩ := h.foldl_disarm .lineReset ((controlledEnd .lineReset s).ctl.armed.map (·.cue))
  have hl := loseHoming_none (s := (disarmAll .lineReset (controlledEnd .lineReset s)).onCtl fun c =>
    { c with enableFresh := false, lapse := none }) h7 h5 h6
  rw [lineResetCues, loseEnable, hl]
  rfl

/-- A STATUS that is owed is built of the state that the command leaves (R161, log 12). -/
theorem finish_builds (hd : s.line.statusDue ≠ 0) (ha : addressed s = true) :
    ∃ q, (finish s).line.status = some q ∧ q.body.axis = s.seq.axis ∧ q.body.override = s.ctl.override ∧
      q.body.enableFresh = s.ctl.enableFresh := by
  obtain ⟨n, hn⟩ := Nat.exists_eq_succ_of_ne_zero hd
  have he : finish s = (buildStatus (buildStatus^[n] (restFollow s))).onLine fun l => { l with statusDue := 0 } := by
    rw [← Function.iterate_succ_apply' buildStatus, ← hn]; rfl
  have ha' : addressed (buildStatus^[n] (restFollow s)) = true := by
    rw [iterate_keeps addressed addressed_buildStatus]; exact ha
  have hseq := iterate_keeps (·.seq) buildStatus_seq n (restFollow s)
  have hctl := iterate_keeps (·.ctl) buildStatus_ctl n (restFollow s)
  rw [he]
  simp only [buildStatus, ha', if_true]
  refine ⟨_, rfl, ?_, ?_, ?_⟩
  · exact congrArg (·.axis) hseq
  · exact congrArg (·.override) hctl
  · exact congrArg (·.enableFresh) hctl

/-- The state in which a line reset ends, before the STATUS is built (R80, R92, R164). -/
def lineResetEnd (s : State) : State :=
  (buildAnnounce .lineReset ((lineResetCues s).onPeers unhearClearance)).onLine noteChange

theorem exec_linereset {h : Hdr} {set : StationSet} (ht : setFrameTaken s h set = true) :
    exec (.linereset h set) s = .next (finish (lineResetEnd s)) := if_pos ht

theorem addressed_of_setFrame {h : Hdr} {set : StationSet} (ht : setFrameTaken s h set = true) : addressed s = true := by
  simp only [setFrameTaken, consoleFrameTaken, Bool.and_eq_true] at ht
  exact ht.1.1

theorem addressed_of_base (h : base t = base s) : addressed t = addressed s := by
  obtain ⟨-, hh, hst, -⟩ := (base_eq_iff _ _).1 h
  rw [addressed, addressed, hh, hst]

/-- The cues ended and disarmed by a line reset (R80). -/
def allDisarmed (s : State) : State := disarmAll .lineReset (controlledEnd .lineReset s)

theorem lineResetEnd_eq (hu : Unmoved s (controlledEnd .lineReset s)) (ha : addressed s = true) :
    ∃ v, v = allDisarmed s ∧ lineResetEnd s = { v with
      ctl := { v.ctl with enableFresh := false, lapse := none, override := 100 }
      peers := unhearClearance v.peers
      line := { v.line with
        announce := some ⟨0, none, ⟨.lineReset, s.store.revision, s.table.length, s.store.cueState⟩⟩
        attempt := supersede .announce v.line.attempt
        statusDue := v.line.statusDue + 1 } } := by
  refine ⟨allDisarmed s, rfl, ?_⟩
  have hbase : base ((lineResetCues s).onPeers unhearClearance) = base s := by rw [lineResetCues_eq hu]; simp
  have ha' : addressed ((lineResetCues s).onPeers unhearClearance) = true := (addressed_of_base hbase).trans ha
  obtain ⟨-, -, -, -, -, htable, hstore, -⟩ := (base_eq_iff _ _).1 hbase
  simp only [lineResetEnd, buildAnnounce, ha', if_true, htable, hstore]
  rw [lineResetCues_eq hu]
  rfl

/-- Settles O42. -/
theorem lineResetClearsCalls : Obligations.LineResetClearsCalls := by
  intro s h set hs
  refine ⟨fun ht => if_neg (by simp [ht]), fun ht hreq hhome hgen => ?_⟩
  have hu : Unmoved s (controlledEnd .lineReset s) :=
    Unmoved.controlledEnd ⟨rfl, rfl, rfl, rfl, hhome, hgen, hreq⟩ _
  have haddr := addressed_of_setFrame ht
  obtain ⟨v, hv, hend⟩ := lineResetEnd_eq hu haddr
  have hunmoved : Unmoved s v := hv ▸ hu.foldl_disarm _ _
  obtain ⟨hpath, hguard, hmarks, hlost, -⟩ := hunmoved
  have hbase : base v = base s := by rw [hv]; simp [allDisarmed]
  have hstill : still v = still s := by rw [hv]; simp [allDisarmed]
  have harmed : v.ctl.armed = [] := by rw [hv]; exact disarmAll_armed _ _
  have hbaseEnd : base (lineResetEnd s) = base s := by rw [hend]; exact hbase
  have hdue : (lineResetEnd s).line.statusDue ≠ 0 := by rw [hend]; exact Nat.succ_ne_zero _
  have haddrEnd : addressed (lineResetEnd s) = true := (addressed_of_base hbaseEnd).trans haddr
  obtain ⟨q, hq, hqa, hqo, hqe⟩ := finish_builds hdue haddrEnd
  obtain ⟨-, htimer⟩ := reported_finish hdue haddrEnd
  rw [exec_linereset ht, answers_next]
  refine ⟨?_, ?_, ?_, ?_, ?_, fun hx => ?_, fun x hx hp ha => ?_, ?_, ⟨q, hq, ?_, ?_, ?_⟩, ?_, ?_, ?_, ?_, ?_, ?_, ?_, ?_, ?_⟩
  · rw [finish_ctl, hend]; exact harmed
  · rw [finish_ctl, hend]
  · rw [finish_ctl, hend]
  · rw [finish_ctl, hend]
  · rw [finish_ctl, hend]; exact congrArg (fun p => p.2.1.2.2.2) hstill
  · have hc : controlledEnd .lineReset s = s := by simp [controlledEnd, hx]
    have hve : v = (s.ctl.armed.map (·.cue)).foldl (disarm .lineReset) s := by rw [hv, allDisarmed, hc, disarmAll]
    rw [foldl_disarm_eq] at hve
    subst hve
    refine ⟨?_, ?_, ?_, ?_, ?_, ?_⟩
    · rw [finish_ctl, hend]; exact hx
    · rw [finish_ctl, hend]
      simp only [List.getLast?_map, Option.map_map]
      rfl
    · rw [finish_peers, hend]
    · rw [finish_seq, hend]; rfl
    · rw [finish_sup, hend]
    · rw [finish_meas, hend]
  · obtain ⟨⟨h1, h2, h3⟩, hc, -⟩ := controlledEnd_stopsFor (o := .lineReset) hx hp ha
    have hseq : v.seq = (controlledEnd .lineReset s).seq := by rw [hv]; exact disarmAll_seq _ _
    have hctx : v.ctl.ctx = (controlledEnd .lineReset s).ctl.ctx := by rw [hv]; exact disarmAll_ctx _ _
    rw [finish_seq, finish_ctl, hend]
    exact ⟨hseq ▸ h1, hseq ▸ h2, hseq ▸ h3, hctx.trans (congrArg (·.ctx) hc)⟩
  · rw [finish_announce, hend]
  · rw [hqa, finish_seq]; rfl
  · rw [hqo, hend]
  · rw [hqe, hend]
  · rw [htimer, store_of_base ((finish_base _).trans hbaseEnd)]
  · rw [finish_marks, hend]; exact hmarks
  · rw [finish_replies, hend]; exact congrArg (fun p => p.2.2.2.1) hstill
  · rw [finish_seqCount, hend]; exact congrArg (fun p => p.2.2.2.2.2.1) hstill
  · rw [finish_markLost, hend]; exact hlost
  · rw [finish_gen_s, hend]; exact congrArg (·.1) hpath
  · rw [finish_gen_v, hend]; exact congrArg (·.2.1) hpath
  · rw [finish_guard, hend]; exact hguard
  · rw [finish_base, hbaseEnd]

end ends

end Sys2Proof.Machine


/-! PROOFS. Releases: the brake released, the move fixed, motion started; wakes completed. -/

namespace Sys2Proof.Machine

section releases
variable {s t u : State} {o : CueOutcome} {x : CueContext} {m : MoveInputs}

/-! ## Marks and retakes read off -/

/-- A set-point that stays fires no mark (R41). -/
theorem firedBy_same (d : Dir) (p : Position) (marks fired : List Nat) : firedBy d p p marks fired = [] := by
  refine List.filter_eq_nil_iff.2 fun i _ => ?_
  cases marks[i - 1]? with
  | none => exact Bool.false_ne_true
  | some k => cases d <;> simp [crosses]

/-- The move of a STARTING cue fixed, as one record (R9, R25, R41, R70). -/
theorem fixStart_eq (hx : s.ctl.ctx = some x) :
    let m := fixMove s.store.live x.record.cue s.meas.measured.toNat
    fixStart x s = { s with
      ctl := { s.ctl with ctx := some { x with move := some m, phase := .running } }
      gen := { s.gen with
        s := s.meas.measured
        v := 0
        fired := joinFired s.gen.fired (firedAt s x m s.meas.measured) }
      line := ((firedAt s x m s.meas.measured).foldl (queueMark x.record.cue.number) s).line } := by
  simp only [fixStart, fireMarks, onCtx, onCtl_ctl, onGen_ctl, hx, Option.map_some]
  rw [foldl_queueMark, foldl_queueMark_line _ _ _ s (by simp)]
  simp only [State.onGen, State.onCtl, hx, Option.map_some]
  rfl

/-! ## The group test of every member -/

/-- The contents of a member break the group of a context (R103). -/
def BreaksIt (x : CueContext) (ps : List Peer) (v : Nat × MemberView) : Prop :=
  ∃ c, memberContents ps v.1 = some c ∧ breaksGroup x.record.cue.number c v.2 = true

theorem groupTest_spared {n : Nat} (hx : s.ctl.ctx = some x)
    (h : ∀ v ∈ x.views, v.1 = n → ¬BreaksIt x s.peers v) : groupTest s n = s := by
  rw [groupTest, hx]
  dsimp only
  split
  · rename_i v c hv hc
    have hn : v.1 = n := by simpa using List.find?_some hv
    refine if_neg fun hb => h v (List.mem_of_find?_eq_some hv) hn ⟨c, ?_, hb.2⟩
    rw [hn]; exact hc
  · rfl

theorem groupTest_breaks {v : Nat × MemberView} (hx : s.ctl.ctx = some x) (hp : x.phase = .running) (hv : v ∈ x.views)
    (hd : (x.views.map (·.1)).Nodup) (h : BreaksIt x s.peers v) : groupTest s v.1 = controlledEnd .groupBroken s := by
  obtain ⟨c, hc, hb⟩ := h
  have hfind : x.views.find? (fun w => decide (w.1 = v.1)) = some v := by
    obtain ⟨w, hw⟩ : ∃ w, x.views.find? (fun w => decide (w.1 = v.1)) = some w := by
      rw [← Option.isSome_iff_exists, List.find?_isSome]
      exact ⟨v, hv, by simp⟩
    have hwv : w.1 = v.1 := by simpa using List.find?_some hw
    rw [hw, List.inj_on_of_nodup_map hd (List.mem_of_find?_eq_some hw) hv hwv]
  simp only [groupTest, hx, hfind, hc, hp, hb, and_self, if_true]

theorem groupTest_ending {n : Nat} (hx : s.ctl.ctx = some x) (hp : x.phase = .ending) : groupTest s n = s := by
  rw [groupTest, hx]
  dsimp only
  split
  · exact if_neg (by simp [hp])
  · rfl

theorem foldl_groupTest_ending (hx : s.ctl.ctx = some x) (hp : x.phase = .ending) (l : List Nat) : l.foldl groupTest s = s := by
  induction l with
  | nil => rfl
  | cons n l ih => rw [List.foldl_cons, groupTest_ending hx hp, ih]

theorem groupTestAll_spared (hx : s.ctl.ctx = some x) (h : ∀ v ∈ x.views, ¬BreaksIt x s.peers v) : groupTestAll s = s := by
  have hf (l : List Nat) : l.foldl groupTest s = s := by
    induction l with
    | nil => rfl
    | cons n l ih => rw [List.foldl_cons, groupTest_spared hx fun v hv _ => h v hv, ih]
  rw [groupTestAll, hx]
  exact hf _

/-- On a moving axis the first member that breaks the group stops the cue; the later ones find it ENDING (R74, R103). -/
theorem groupTestAll_breaks {v : Nat × MemberView} (hx : s.ctl.ctx = some x) (hp : x.phase = .running)
    (ha : s.seq.axis = .moving) (hv : v ∈ x.views) (hd : (x.views.map (·.1)).Nodup) (h : BreaksIt x s.peers v) :
    groupTestAll s = controlledEnd .groupBroken s := by
  have hne : x.phase ≠ .ending := by rw [hp]; decide
  have hf (l : List (Nat × MemberView)) (hl : ∀ w ∈ l, w ∈ x.views) (hvl : v ∈ l) :
      (l.map (·.1)).foldl groupTest s = controlledEnd .groupBroken s := by
    induction l with
    | nil => cases hvl
    | cons w l ih =>
      rw [List.map_cons, List.foldl_cons]
      by_cases hw : BreaksIt x s.peers w
      · obtain ⟨-, hctl, -⟩ := controlledEnd_stopsFor (o := .groupBroken) hx hne ha
        rw [groupTest_breaks hx hp (hl w (by simp)) hd hw]
        exact foldl_groupTest_ending (congrArg (·.ctx) hctl) rfl _
      · have hspare : groupTest s w.1 = s := by
          refine groupTest_spared hx fun y hy hyw => ?_
          rwa [List.inj_on_of_nodup_map hd hy (hl w (by simp)) hyw]
        rw [hspare]
        refine ih (fun y hy => hl y (by simp [hy])) ?_
        rcases List.mem_cons.1 hvl with rfl | hvl
        · exact absurd h hw
        · exact hvl
  rw [groupTestAll, hx]
  exact hf x.views (fun _ h => h) hv

/-! ## Releases completed -/

/-- A cue whose move has just been fixed, in a context (R9, R25, R41). -/
def Launched (x y : CueContext) (s t : State) : Prop :=
  let m := fixMove s.store.live x.record.cue s.meas.measured.toNat
  (t.seq.startReq = .none ∧ t.seq.brake = none ∧ brakeRel t = true ∧ t.sup.latched = s.sup.latched ∧
    t.peers = s.peers ∧ t.gen.v = 0 ∧ t.gen.progress = s.gen.progress ∧ base t = base s ∧ still t = still s) ∧
    t.ctl = { s.ctl with ctx := some { y with move := some m, holdTime := 0 } } ∧ t.gen.s = s.meas.measured ∧
    t.guard = s.guard ∧ t.gen.fired = joinFired s.gen.fired (firedAt s x m s.meas.measured) ∧
    t.line.marks = ((firedAt s x m s.meas.measured).foldl (queueMark x.record.cue.number) s).line.marks

theorem Launched.finish {y : CueContext} (h : Launched x y s t) : Launched x y s (finish t) := by
  simpa [Launched] using h

/-- The state in which a released STARTING cue is MOVING, before the group is tested (R9). -/
def launched (x : CueContext) (s : State) : State := setAxis .moving (fixStart x s)

theorem launched_ctl (hx : s.ctl.ctx = some x) : (launched x s).ctl = { s.ctl with
    ctx := some { x with
      move := some (fixMove s.store.live x.record.cue s.meas.measured.toNat)
      phase := .running
      holdTime := 0 } } := by
  rw [launched, setAxis_ctl, fixStart_eq hx]
  rfl

theorem launched_launched (hx : s.ctl.ctx = some x) : Launched x { x with phase := .running } s (launched x s) := by
  have hline := fixStart_eq hx
  refine ⟨⟨?_, ?_, ?_, ?_, ?_, ?_, ?_, ?_, ?_⟩, launched_ctl hx, ?_, ?_, ?_, ?_⟩
  · simp [launched, seqIn]
  · simp [launched, seqIn]
  · simp [launched, brakeRel, brakeRelIn]
  · simp only [launched, setAxis_latched, hline]
  · simp only [launched, setAxis_peers, hline]
  · simp only [launched, setAxis_gen, hline]
  · simp only [launched, setAxis_gen, hline]
  · simp [launched]
  · simp [launched]
  · simp only [launched, setAxis_gen, hline]
  · simp only [launched, setAxis_guard, hline]
  · simp only [launched, setAxis_gen, hline]
  · simp only [launched, setAxis_line, hline]; rfl

theorem launched_peers (hx : s.ctl.ctx = some x) : (launched x s).peers = s.peers := by
  rw [launched, setAxis_peers, fixStart_eq hx]

theorem completeRelease_starting (hx : s.ctl.ctx = some x) (hp : x.phase = .starting) :
    completeRelease s = groupTestAll (launched x s) := by
  simp [completeRelease, hx, hp, launched]

/-- With no member breaking the group the cue is RUNNING on a MOVING axis (R9, R103). -/
theorem completeRelease_launches (hx : s.ctl.ctx = some x) (hp : x.phase = .starting)
    (h : ∀ v ∈ x.views, ¬BreaksIt x s.peers v) :
    completeRelease s = launched x s := by
  rw [completeRelease_starting hx hp]
  refine groupTestAll_spared (congrArg (·.ctx) (launched_ctl hx)) fun v hv => ?_
  rw [launched_peers hx]
  exact h v hv

/-- Where a member breaks the group the cue is stopped by the path of MOVING (R103, log 17). -/
theorem completeRelease_broken {v : Nat × MemberView} (hx : s.ctl.ctx = some x) (hp : x.phase = .starting) (hv : v ∈ x.views)
    (hd : (x.views.map (·.1)).Nodup) (h : BreaksIt x s.peers v) :
    Launched x { x with phase := .ending, endReason := some .groupBroken } s (completeRelease s) ∧
      (completeRelease s).seq.axis = .stopping ∧ (completeRelease s).seq.stopKind = .controlled ∧
      (completeRelease s).seq.dest = .parked := by
  have hctx := congrArg (·.ctx) (launched_ctl hx)
  have hpeers : (launched x s).peers = s.peers := launched_peers hx
  have hbreak : groupTestAll (launched x s) = controlledEnd .groupBroken (launched x s) := by
    refine groupTestAll_breaks hctx rfl (by simp [launched]) hv hd ?_
    rw [hpeers]; exact h
  obtain ⟨⟨h1, h2, h3⟩, hctl, hlatched, hp', hguard, hbase, hstill, hpath, hmarks, hfired, hreq, hbrake⟩ :=
    controlledEnd_stopsFor (o := .groupBroken) hctx (by simp) (by simp [launched])
  obtain ⟨⟨-, -, -, l4, l5, l6, l7, l8, l9⟩, -, l10, l11, l12, l13⟩ := launched_launched hx
  rw [completeRelease_starting hx hp, hbreak]
  refine ⟨⟨⟨hreq, hbrake, by rw [brakeRel, h1]; rfl, hlatched.trans l4, hp'.trans l5, ?_, ?_, hbase.trans l8, hstill.trans l9⟩,
    ?_, ?_, hguard.trans l11, hfired.trans l12, hmarks.trans l13⟩, h1, h2, h3⟩
  · exact (congrArg (·.2.1) hpath).trans l6
  · exact (congrArg (·.2.2.2.1) hpath).trans l7
  · rw [hctl, launched_ctl hx]
  · exact (congrArg (·.1) hpath).trans l10

/-- The inputs of a move just fixed (R25). -/
theorem fixMove_spec (live : Setup) (c : CueDef) (s0 : Nat) :
    let m := fixMove live c s0
    m.s0 = s0 ∧ m.target = c.target * 1000000 ∧ (m.dir = .up ↔ m.s0 < m.target) ∧
      (m.total : Int) = ((m.target : Int) - m.s0).natAbs ∧ m.vmax = min c.vmax live.axisVmax * 1000 ∧
      m.accel = c.accel ∧ m.decel = c.decel := by
  refine ⟨rfl, rfl, ?_, ?_, ?_, rfl, rfl⟩
  · simp only [fixMove, moveDir]; split <;> simp_all
  · simp only [fixMove, distance]; split <;> omega
  · simp only [fixMove, moveVmax]; split <;> omega

/-- The part with BRAKE_FB reading released. -/
def freed (s : State) : State := s.onInp fun p => { p with brakeReleased := true }

theorem exec_brakeFbReleased (s : State) : exec .brakeFbReleased s =
    .next (finish (if s.seq.axis = .releasing then completeRelease (freed s) else freed s)) := rfl

theorem enterHoming_facts (s : State) :
    (enterHoming s).seq = seqIn .homing s.seq ∧ (enterHoming s).meas.capture = .armed ∧
      (enterHoming s).guard = { s.guard with notice := false } ∧ (enterHoming s).gen =
        { s.gen with homing := some (homingInputs s.store.live s.gen.s) } ∧ (enterHoming s).sup.latched = s.sup.latched ∧
      (enterHoming s).peers = s.peers ∧ (enterHoming s).ctl.ctx = s.ctl.ctx ∧ (enterHoming s).line = noteChange s.line := by
  have hguard := setAxis_guard .homing s
  have hgen := setAxis_gen .homing s
  have hctl := setAxis_ctl .homing s
  have hstore := setAxis_store .homing s
  have hrest := And.intro (setAxis_latched .homing s) (And.intro (setAxis_peers .homing s) (setAxis_line .homing s))
  have hseq := setAxis_seq .homing s
  unfold enterHoming
  generalize setAxis .homing s = v at *
  obtain ⟨hl, hp, hline⟩ := hrest
  refine ⟨hseq, rfl, ?_, ?_, hl, hp, ?_, hline⟩
  · simp [onRun, hguard]
  · simp [onRun, hgen, hstore]
  · simp [onRun, hctl]

/-- Settles O52. -/
theorem releaseStartsMotion : Obligations.ReleaseStartsMotion := by
  intro s hs
  rw [exec_brakeFbReleased]
  refine ⟨fun ha => ?_, fun ha => ⟨fun x hx hp => ⟨fun hno => ?_, fun v hv c hd hc hb => ?_⟩, fun x hx hp hv => ?_,
    fun hx hr hv => ?_⟩⟩
  · rw [if_neg ha]
    exact congrArg _ (finish_of hs rfl rfl rfl rfl rfl)
  · obtain ⟨f1, f2, f3, f4, f5, f6, f7⟩ := fixMove_spec s.store.live x.record.cue s.meas.measured.toNat
    have hx' : (freed s).ctl.ctx = some x := hx
    obtain ⟨hk, l2, l3, l4, l5, l6⟩ := (launched_launched hx').finish
    rw [if_pos ha, completeRelease_launches hx' hp fun v hv ⟨c, hc, hb⟩ => by simp [hno v hv c hc] at hb, answers_next]
    exact ⟨⟨hk, l2, f1, f2, f3, f4, f5, f6, f7, l3, l4, l5, l6.trans (congrArg (·.marks) (foldl_queueMark_line _ _ (freed s) s rfl))⟩,
      by simp [launched]⟩
  · obtain ⟨f1, f2, f3, f4, f5, f6, f7⟩ := fixMove_spec s.store.live x.record.cue s.meas.measured.toNat
    have hx' : (freed s).ctl.ctx = some x := hx
    obtain ⟨hl, h1, h2, h3⟩ := completeRelease_broken hx' hp hv hd ⟨c, hc, hb⟩
    obtain ⟨hk, l2, l3, l4, l5, l6⟩ := hl.finish
    rw [if_pos ha, answers_next]
    exact ⟨⟨hk, l2, f1, f2, f3, f4, f5, f6, f7, l3, l4, l5, l6.trans (congrArg (·.marks) (foldl_queueMark_line _ _ (freed s) s rfl))⟩,
      by simpa using h1, by simpa using h2, by simpa using h3⟩
  · have he : completeRelease (freed s) = setAxis .moving (freed s) := by
      have hx' : (freed s).ctl.ctx = some x := hx
      simp [completeRelease, hx', hp]
    rw [if_pos ha, he, answers_next]
    refine ⟨⟨by simp [seqIn], by simp [seqIn], by simp [brakeRel, brakeRelIn], by simp; rfl, by simp; rfl, by rw [finish_gen_v, setAxis_gen]; exact hv,
      by simp; rfl, by simp; rfl, ?_⟩, by simp, ?_, by simp; rfl, by simp; rfl, by simp [noteChange]; rfl⟩
    · rw [finish_still, setAxis_still]; rfl
    · rw [finish_ctl, setAxis_ctl]
      simp [contextIn, freed, hx]
  · have he : completeRelease (freed s) = enterHoming (freed s) := by
      have hx' : (freed s).ctl.ctx = none := hx
      have hr' : (freed s).seq.startReq = .home := hr
      simp [completeRelease, hx', hr']
    obtain ⟨h1, h2, h3, h4, h5, h6, h7, h8⟩ := enterHoming_facts (freed s)
    rw [if_pos ha, he, answers_next]
    refine ⟨⟨by simp [h1, seqIn], by simp [h1, seqIn], by simp [brakeRel, h1, brakeRelIn], by simp [h5]; rfl,
      by simp [h6]; rfl, by rw [finish_gen_v, h4]; exact hv, by rw [finish_gen_progress, h4]; rfl, by simp; rfl, ?_⟩, by simp [h1],
      by simpa using h2, by rw [finish_guard, h3]; rfl, by rw [finish_gen_s, h4]; rfl, by rw [finish_ctl, h7]; exact hx,
      by rw [finish_gen_homing, h4]; rfl, by rw [finish_marks, h8]; rfl⟩
    rw [finish_still, enterHoming_still]; rfl

end releases

end Sys2Proof.Machine


/-! PROOFS. Wakes and releases: DRIVE_READY, the release begun, GO on a PARKED axis. -/

namespace Sys2Proof.Machine

section wakes
variable {s t u : State} {o : CueOutcome} {x : CueContext} {m : MoveInputs}

/-! ## The release begun -/

theorem setAxis_readySeen (a : AxisState) (s : State) :
    (setAxis a s).sup.readySeen = (driveEn (setAxis a s) && s.sup.readySeen) := by
  simp [setAxis, followDrive_readySeen, presenceIn]

/-- What a change of axis state makes of the recovery record (R146). -/
theorem setAxis_recovery_eq (a : AxisState) (s : State) : (setAxis a s).sup.recovery = s.sup.recovery.map fun r =>
    if a = .recovering ∧ (r.conds.all fun c => !(presenceIn a s.sup).present.contains c) = true then
      { r with dwell := some (r.dwell.getD s.store.live.dwell) }
    else { r with dwell := none } := by
  simp [setAxis, dwellFollow]
  rfl

theorem presenceIn_present {a : AxisState} {p : Supervision} {d : Condition} (h : d ∈ (presenceIn a p).present) :
    d ∈ p.present := present_subset_presenceIn a p h

/-- RELEASING with the set-point retaken, BRAKE_REL asserted and the brake timer running (R8). -/
def releasing (req : StartRequest) (s : State) : State :=
  (setAxis .releasing (retake s)).onSeq fun q => { q with startReq := req, brake := some s.store.live.brakeTime }

theorem releasing_seq (req : StartRequest) (s : State) : (releasing req s).seq =
    { seqIn .releasing s.seq with startReq := req, brake := some s.store.live.brakeTime } := by
  simp [releasing, retake]

/-- The end of the beginning of a release: a BRAKE_FB that reads released already completes it (R9). -/
def releaseTested (s : State) : State := if s.seq.axis = .releasing ∧ s.inp.brakeReleased = true then completeRelease s else s

/-- A release begins: the axis is RELEASING, each RECOVER-class condition present occurs, the feedback is read (R8). -/
theorem beginRelease_eq (req : StartRequest) (s : State) : beginRelease req s =
    releaseTested ((releaseOccurrences (releasing req s)).foldl (fun t c => recoverOccurrence c t) (releasing req s)) := by
  have hstore : (setAxis .releasing (retake s)).store.live = s.store.live := by simp
  unfold beginRelease
  dsimp only
  rw [hstore]
  rfl

/-- With no RECOVER-class condition present a release begins, and completes where the brake reads released (R8, R9). -/
theorem beginRelease_quiet {req : StartRequest} (h : ∀ d ∈ s.sup.present, classOf s d ≠ .recover) :
    beginRelease req s = if s.inp.brakeReleased then completeRelease (releasing req s) else releasing req s := by
  have hocc : releaseOccurrences (releasing req s) = [] := by
    refine releaseOccurrences_none fun d hd => ?_
    have hp : d ∈ (presenceIn .releasing (retake s).sup).present := by
      rw [← setAxis_present]; exact hd
    have := h d (by simpa using presenceIn_present hp)
    simpa [classOf, releasing] using this
  have hb : (releasing req s).inp.brakeReleased = s.inp.brakeReleased := by simp [releasing]
  have ha : (releasing req s).seq.axis = .releasing := by simp [releasing]
  rw [beginRelease_eq, hocc, List.foldl_nil, releaseTested, ha, hb]
  simp

/-- A release with no move fixed retakes the measured position and touches nothing else (R8). -/
theorem releasing_waiting {req : StartRequest} (hx : ∀ x ∈ s.ctl.ctx, x.move = none) :
    (releasing req s).ctl = s.ctl ∧ (releasing req s).gen = { s.gen with s := s.meas.measured, v := 0 } ∧
      (releasing req s).line = noteChange s.line ∧ (releasing req s).peers = s.peers ∧ (releasing req s).guard = s.guard := by
  refine ⟨?_, ?_, ?_, ?_, ?_⟩
  · simp [releasing]
  · simp [releasing, retake_waiting s hx]
  · simp [releasing, retake_waiting s hx]
  · simp [releasing, retake_waiting s hx]
  · simp [releasing, retake_waiting s hx]

theorem releasing_rest (req : StartRequest) (s : State) :
    (releasing req s).sup.latched = s.sup.latched ∧ base (releasing req s) = base s ∧ still (releasing req s) = still s ∧
      brakeRel (releasing req s) = true ∧ (s.inp.loopOpen = false → driveEn (releasing req s) = true) ∧
      (releasing req s).sup.readySeen = (driveEn (releasing req s) && s.sup.readySeen) := by
  refine ⟨by simp [releasing], by simp [releasing], by simp [releasing], by simp [releasing, brakeRel, brakeRelIn],
    fun hl => ?_, ?_⟩
  · exact driveEn_of_axis (by simpa [releasing] using hl) (by simp [releasing]) (by simp [releasing]) (by simp [releasing])
  · have := setAxis_readySeen .releasing (retake s)
    simpa [releasing, driveEn, trippedHolding, isLatched] using this

/-! ## DRIVE_READY -/

/-- The part with DRIVE_READY asserted. -/
def ready (s : State) : State := s.onInp fun p => { p with driveReady := true }

theorem exec_driveReady (s : State) : exec .driveReadyAsserted s =
    .next (finish (if s.seq.axis = .waking then completeWake (ready s) else seeReady (ready s))) := rfl

/-- A wake completed first parks the axis (R7). -/
def woken (s : State) : State := setAxis .parked (seeReady (ready s))

/-- What a completed wake leaves beside the sequencer. -/
def WokenKept (s t : State) : Prop :=
  t.sup.readySeen = true ∧ t.sup.latched = s.sup.latched ∧ t.ctl = s.ctl ∧ t.peers = s.peers ∧ t.guard = s.guard ∧
    base t = base (ready s) ∧ still t = still s ∧ t.gen = s.gen ∧ t.sup.present ⊆ s.sup.present

theorem driveEn_waking (hl : s.inp.loopOpen = false) (ha : s.seq.axis = .waking) : driveEn s = true :=
  driveEn_of_axis hl (by simp [ha]) (by simp [ha]) (by simp [ha])

theorem WokenKept.setAxis (h : WokenKept s t) {a : AxisState} (hm : a ≠ .moving) (hl : s.inp.loopOpen = false)
    (ha : a ≠ .unaddressed ∧ a ≠ .rest ∧ a ≠ .tripped) : WokenKept s (setAxis a t) := by
  obtain ⟨h1, h2, h3, h4, h5, h6, h7, h8, h9⟩ := h
  have hinp : t.inp = (ready s).inp := ((base_eq_iff _ _).1 h6).2.2.2.2.1
  have hd : driveEn (Machine.setAxis a t) = true :=
    driveEn_of_axis (by rw [setAxis_inp, hinp]; exact hl) (by simpa using ha.1) (by simpa using ha.2.1) (by simpa using ha.2.2)
  refine ⟨by rw [setAxis_readySeen, hd, h1]; rfl, by simpa using h2, ?_, by simpa using h4, by simpa using h5,
    by simpa using h6, by simpa using h7, by simpa using h8, ?_⟩
  · rw [setAxis_ctl, contextIn_other _ _ hm, h3]
  · rw [setAxis_present]
    exact List.Subset.trans (present_subset_presenceIn a t.sup) h9

theorem wokenKept_woken (ha : s.seq.axis = .waking) (hl : s.inp.loopOpen = false) : WokenKept s (woken s) := by
  have hd : driveEn (ready s) = true := driveEn_waking hl ha
  have hseen : WokenKept s (seeReady (ready s)) := by
    rw [seeReady_eq, hd]
    exact ⟨rfl, rfl, rfl, rfl, rfl, rfl, rfl, rfl, fun _ h => h⟩
  exact hseen.setAxis (by decide) hl (by decide)

theorem completeWake_eq (s : State) : completeWake (ready s) =
    match s.seq.startReq with
    | .none => woken s
    | .cue => beginRelease .cue (woken s)
    | .home => beginRelease .home (woken s)
    | .recover => setAxis .recovering (woken s) := rfl

/-- Settles O51. -/
theorem driveReadyCompletesWake : Obligations.DriveReadyCompletesWake := by
  intro s hs
  rw [exec_driveReady]
  refine ⟨fun ha => ?_, fun ha hl => ⟨fun hr => ?_, fun hr => ?_, fun hr hx hb hno => ?_⟩⟩
  · rw [if_neg ha, seeReady_eq]
    exact congrArg _ (finish_of hs rfl rfl rfl rfl rfl)
  · obtain ⟨h1, h2, h3, h4, h5, h6, h7, h8, -⟩ := wokenKept_woken ha hl
    have hseq : (woken s).seq = seqIn .parked s.seq := by simp [woken, ready]
    have hlive : (woken s).store.live = s.store.live := by rw [store_of_base h6]; rfl
    rw [if_pos ha, completeWake_eq, hr, answers_next]
    refine ⟨by simp [hseq], ⟨by simp [hseq, seqIn], by simp [hseq, seqIn], by simpa using h1, by simpa using h2,
      by simpa using h3, by simpa using h4, by simpa using h5, by rw [finish_base]; exact h6, by simpa using h7,
      by rw [finish_path, h8]⟩,
      fun harm hx hz => ?_, fun hnot => ?_⟩
    · rw [finish_seq, restFollow_rest, restConditions, hseq, h3, hlive, harm, hx, if_pos (by simp), if_neg hz]
      rfl
    · rw [finish_seq, restFollow_rest, restConditions, hseq, h3, hlive]
      rcases hnot with hnot | hnot | hnot
      · simp [hnot]
      · simp [hnot]
      · simp [hnot]
  · obtain ⟨h1, h2, h3, h4, h5, h6, h7, h8, -⟩ :=
      (wokenKept_woken ha hl).setAxis (a := .recovering) (by decide) hl (by decide)
    rw [if_pos ha, completeWake_eq, hr, answers_next]
    exact ⟨by simp, by simp [seqIn], by simp [seqIn], by simpa using h1, by simpa using h2,
      by simpa using h3, by simpa using h4, by simpa using h5, by rw [finish_base]; exact h6, by simpa using h7,
      by rw [finish_path, h8]⟩
  · obtain ⟨h1, h2, h3, h4, h5, h6, h7, h8, h9⟩ := wokenKept_woken ha hl
    have hlive : (woken s).store.live = s.store.live := by rw [store_of_base h6]; rfl
    have hinp : (woken s).inp = (ready s).inp := ((base_eq_iff _ _).1 h6).2.2.2.2.1
    have hmeas : (woken s).meas.measured = s.meas.measured := congrArg (fun p => p.1.2.2.1) h7
    have hq : beginRelease s.seq.startReq (woken s) = releasing s.seq.startReq (woken s) := by
      have hrec : ∀ d ∈ (woken s).sup.present, classOf (woken s) d ≠ .recover := fun d hd => by
        simpa [classOf, hlive] using hno d (h9 hd)
      rw [beginRelease_quiet hrec, hinp]
      exact if_neg (by simp [ready, hb])
    have he : completeWake (ready s) = releasing s.seq.startReq (woken s) := by
      rw [← hq, completeWake_eq]
      rcases hr with hr | hr <;> rw [hr]
    have hx' : ∀ x ∈ (woken s).ctl.ctx, x.move = none := by rw [h3]; exact hx
    obtain ⟨r1, r2, r3, r4, r5⟩ := releasing_waiting (req := s.seq.startReq) hx'
    obtain ⟨r6, r7, r8, r9, r10, r11⟩ := releasing_rest s.seq.startReq (woken s)
    have hd : driveEn (releasing s.seq.startReq (woken s)) = true := r10 (by rw [hinp]; exact hl)
    rw [if_pos ha, he, answers_next]
    refine ⟨by simp [releasing_seq], by simp [releasing_seq], by simp [releasing_seq, seqIn],
      by simp [releasing_seq, hlive], by simpa using r9, by simpa using hd, ?_, by rw [finish_gen_s, r2, hmeas],
      by rw [finish_gen_v, r2], by rw [finish_gen_progress, r2, h8], by rw [finish_ctl, r1, h3],
      by rw [finish_peers, r4, h4], by rw [finish_guard, r5, h5], by rw [finish_base, r7]; exact h6, by rw [finish_still, r8, h7]⟩
    rw [finish_sup, r11, hd, h1]
    rfl

end wakes

end Sys2Proof.Machine


/-! PROOFS. GO on a PARKED axis: the end in the band, the release, the move fixed at once, the recovery. -/

namespace Sys2Proof.Machine

section go
variable {s t u v : State} {r : CueRecord} {cue : Nat}

/-! ## A start on a PARKED axis -/

/-- The context of a cue that starts. -/
theorem begun_facts (r : CueRecord) (s : State) :
    (begun r s).ctl = { s.ctl with
        armed := s.ctl.armed.filter fun a => decide (a.cue ≠ r.cue.number)
        ctx := some (newContext s.station s.peers r)
        lastEvent := some (.started r.cue.number) } ∧
      (begun r s).gen = { s.gen with progress := 0, fired := [] } ∧
      (begun r s).line = { s.line with markLost := false } ∧ (begun r s).seq = s.seq ∧ (begun r s).peers = s.peers ∧
      (begun r s).guard = s.guard ∧ (begun r s).sup = s.sup ∧ base (begun r s) = base s ∧ still (begun r s) = still s ∧
      (begun r s).meas = s.meas := ⟨rfl, rfl, rfl, rfl, rfl, rfl, rfl, rfl, rfl, rfl⟩

/-- A GO that passes its tests on an axis that is not homing starts its cue; no other delay is waiting (R67, R68). -/
theorem exec_go_starts {h : Hdr} (ht : consoleFrameTaken s h = true) (hr : findCue s.table cue = some r)
    (harm : isArmed s cue = true) (hx : s.ctl.ctx = none) (ha : s.seq.axis = .parked) (hreq : s.seq.startReq ≠ .home)
    (hm : s.meas.referenced = true) (he : s.ctl.enableFresh = true) (hg : groupVerdict s.station s.peers r = none)
    (hd : ∀ a ∈ (startCue r s).ctl.armed, a.trigger ≠ some (.delaying 0)) :
    exec (.go h cue) s = .next (finish (startCue r s)) := by
  have hcue : r.cue.number = cue := (findCue_some hr).2
  have hn : startRefusal s r = none :=
    startRefusal_passed hx (by simp [homingBusy, ha, hreq]) (.inr (.inr ha)) hm he hg
  rw [exec_go ht hr (isRunning_none cue hx)]
  simp only [goCue, hcue, harm, hn, Bool.not_true, Bool.false_eq_true, if_false]
  rw [drainDelays_none hd]

/-- A cue started by a GO, in a context, on an axis that has left PARKED (R8, R68). -/
def Going (cue : Nat) (others : List ArmedCue) (x : CueContext) (s t : State) : Prop :=
  t.gen.s = s.meas.measured ∧ t.gen.v = 0 ∧ t.gen.progress = 0 ∧ t.gen.fired = [] ∧
    t.ctl = { s.ctl with armed := others, ctx := some x, lastEvent := some (.started cue) } ∧
    t.line.markLost = false ∧ t.line.marks = s.line.marks ∧ t.peers = s.peers ∧ t.guard = s.guard ∧
    t.sup.latched = s.sup.latched ∧ base t = base s ∧ still t = still s

theorem Going.finish {others : List ArmedCue} {x : CueContext} (h : Going cue others x s t) :
    Going cue others x s (finish t) := by
  simpa [Going] using h

theorem Going.onSeq {others : List ArmedCue} {x : CueContext} (h : Going cue others x s t) (f : Sequencer → Sequencer) :
    Going cue others x s (t.onSeq f) := h

theorem Going.setAxis {others : List ArmedCue} {x : CueContext} (h : Going cue others x s t) {a : AxisState}
    (ha : a ≠ .moving) : Going cue others x s (setAxis a t) := by
  obtain ⟨h1, h2, h3, h4, h5, h6, h7, h8, h9, h10, h11, h12⟩ := h
  refine ⟨by simpa using h1, by simpa using h2, by simpa using h3, by simpa using h4, ?_, by simpa [noteChange] using h6,
    by simpa [noteChange] using h7, by simpa using h8, by simpa using h9, by simpa using h10, by simpa using h11,
    by simpa using h12⟩
  rw [setAxis_ctl, contextIn_other _ _ ha, h5]

/-- The cue started and RELEASING (R8). -/
def goReleasing (r : CueRecord) (s : State) : State := releasing .cue (begun r s)

theorem goReleasing_going (hcue : r.cue.number = cue) :
    Going cue (s.ctl.armed.filter fun a => decide (a.cue ≠ cue)) (newContext s.station s.peers r) s (goReleasing r s) := by
  obtain ⟨b1, b2, b3, b4, b5, b6, b7, b8, b9, b10⟩ := begun_facts r s
  have hmove : ∀ x ∈ (begun r s).ctl.ctx, x.move = none := by
    intro x hx; rw [b1] at hx; cases hx; rfl
  obtain ⟨r1, r2, r3, r4, r5⟩ := releasing_waiting (req := .cue) hmove
  obtain ⟨r6, r7, r8, -⟩ := releasing_rest .cue (begun r s)
  refine ⟨by rw [goReleasing, r2, b10], by rw [goReleasing, r2], by rw [goReleasing, r2, b2], by rw [goReleasing, r2, b2],
    by rw [goReleasing, r1, b1, hcue], by rw [goReleasing, r3, b3]; rfl, by rw [goReleasing, r3, b3]; rfl,
    r4.trans b5, r5.trans b6, r6.trans (by rw [b7]), r7.trans b8, r8.trans b9⟩

theorem startCue_parked (ha : s.seq.axis = .parked) (hb : withinBand s r = false) :
    startCue r s = beginRelease .cue (begun r s) := by
  have ha' : (begun r s).seq.axis = .parked := ha
  rw [startCue_eq, hb, if_neg (by decide), requestStart, ha']

/-- The set-point of a cue that starts RELEASING is the measured position already, so that fixing its move fires no
mark (R9, R41, log 18). -/
theorem launched_going {others : List ArmedCue} {x : CueContext} (hg : Going cue others x s u) (hh : x.holdTime = 0) :
    Going cue others { x with move := some (fixMove s.store.live x.record.cue s.meas.measured.toNat), phase := .running } s
      (launched x u) := by
  obtain ⟨h1, h2, h3, h4, h5, h6, h7, h8, h9, h10, h11, h12⟩ := hg
  have hx : u.ctl.ctx = some x := by rw [h5]
  have hm : u.meas.measured = s.meas.measured := congrArg (fun p => p.1.2.2.1) h12
  have hlive : u.store.live = s.store.live := by rw [store_of_base h11]
  obtain ⟨⟨-, -, -, l4, l5, l6, l7, l8, l9⟩, l10, l11, l12, l13, l14⟩ := launched_launched hx
  have hnone : firedAt u x (fixMove u.store.live x.record.cue u.meas.measured.toNat) u.meas.measured = [] := by
    rw [firedAt, hm, h1]
    exact firedBy_same _ _ _ _
  have hlost : (launched x u).line.markLost = u.line.markLost := by
    rw [launched, setAxis_line, fixStart_eq hx, hnone]
    rfl
  rw [hnone] at l13 l14
  refine ⟨l11.trans hm, l6, l7.trans h3, by rw [l13, h4]; rfl, ?_, hlost.trans h6, l14.trans h7, l5.trans h8, l12.trans h9,
    l4.trans h10, l8.trans h11, l9.trans h12⟩
  rw [l10, h5, hlive, hm, hh]

/-! ## The first recovery -/

theorem conditionsWhere_one {p : Condition → Bool} {c : Condition} (h : ∀ d, p d = decide (d = c)) :
    conditionsWhere p = [c] := by
  have : p = fun d => decide (d = c) := funext h
  rw [this]
  cases c <;> decide

/-- OVERLOAD alone present under RECOVER is tested at the release: the first recovery begins (R144, R145, log 16). -/
theorem beginRelease_overload {x : CueContext} (hx : u.ctl.ctx = some x) (hmove : x.move = none) (hrec : u.sup.recovery = none)
    (hlow : x.recoveries < 3) (hp : isPresent u .overload = true) (hc : classOf u .overload = .recover)
    (hothers : ∀ d ∈ u.sup.present, d ≠ .overload → classOf u d ≠ .recover) :
    beginRelease .cue u = enterSetting .recovering
      ((onCtx (fun y => { y with recoveries := y.recoveries + 1 }) (releasing .cue u)).onSup fun p =>
        { p with recovery := some ⟨[.overload], none, 0⟩ }) := by
  have hx' : (releasing .cue u).ctl.ctx = some x := by
    rw [(releasing_waiting fun y hy => by rw [hx] at hy; cases hy; exact hmove).1, hx]
  have hpresent : (releasing .cue u).sup.present = (presenceIn .releasing u.sup).present := by simp [releasing]
  have hstore : (releasing .cue u).store = u.store := store_of_base (releasing_rest .cue u).2.1
  have hrec' : (releasing .cue u).sup.recovery = none := by
    have : (setAxis .releasing (retake u)).sup.recovery = none := setAxis_recovery _ _ (by simpa using hrec)
    simpa [releasing] using this
  have hocc : releaseOccurrences (releasing .cue u) = [.overload] := by
    refine conditionsWhere_one fun d => ?_
    by_cases hd : d = .overload
    · subst hd
      simp only [isPresent, List.contains_eq_mem, decide_eq_true_eq] at hp
      have hp' : Condition.overload ∈ (releasing .cue u).sup.present := by
        rw [hpresent]
        simp [presenceIn, hp]
      have hc' : classOf (releasing .cue u) .overload = .recover := by rw [classOf, hstore]; exact hc
      simp [isPresent, hp', hc']
    · simp only [hd, decide_false, isPresent, List.contains_eq_mem, Bool.and_eq_false_iff, decide_eq_false_iff_not]
      by_cases hm : d ∈ (releasing .cue u).sup.present
      · refine .inr ?_
        rw [hpresent] at hm
        rw [classOf, hstore]
        exact hothers d (presenceIn_present hm) hd
      · exact .inl hm
  have ha : (releasing .cue u).seq.axis = .releasing := by simp [releasing]
  have hbegins : beginsRecovery (releasing .cue u) = true := by simp [beginsRecovery, ha]
  have hstep : recoverOccurrence .overload (releasing .cue u) = enterSetting .recovering
      ((onCtx (fun y => { y with recoveries := y.recoveries + 1 }) (releasing .cue u)).onSup fun p =>
        { p with recovery := some ⟨[.overload], none, 0⟩ }) := by
    have ha' : ((onCtx (fun y => { y with recoveries := y.recoveries + 1 }) (releasing .cue u)).onSup fun p =>
        { p with recovery := some ⟨[.overload], none, 0⟩ }).seq.axis = .releasing := ha
    simp only [recoverOccurrence, hx', hrec', hbegins, hlow, if_true]
    rw [fastRecoverCue, ha']
  have hfinal : ∀ w : State, (enterSetting .recovering w).seq.axis ≠ .releasing := by
    intro w
    unfold enterSetting
    dsimp only
    split <;> simp [confirmSet]
  rw [beginRelease_eq, hocc, List.foldl_cons, List.foldl_nil, hstep]
  exact if_neg fun h => hfinal _ h.1

/-- The brake set toward RECOVERING for a first recovery by OVERLOAD (R16, R145). -/
theorem enterSetting_overload (hrec : u.sup.recovery = some ⟨[.overload], none, 0⟩)
    (hp : Condition.overload ∈ u.sup.present) :
    let t := enterSetting .recovering u
    t.sup.recovery = some ⟨[.overload], none, 0⟩ ∧ brakeRel t = false ∧ t.seq.startReq = .none ∧
      (if u.inp.brakeReleased then
        t.seq.axis = .setting ∧ t.seq.dest = .recovering ∧ t.seq.brake = some u.store.live.brakeTime
      else t.seq.axis = .recovering ∧ t.seq.brake = none) := by
  have hset : (setAxis .setting u).sup.recovery = some ⟨[.overload], none, 0⟩ := by
    rw [setAxis_recovery_eq, hrec]
    simp
  by_cases hb : u.inp.brakeReleased = true
  · rw [enterSetting_waits _ _ hb]
    refine ⟨hset, by simp [brakeRel, brakeRelIn], by simp [seqIn], ?_⟩
    simp [hb]
  · have hc : enterSetting .recovering u = setAxis .recovering ((setAxis .setting u).onSeq fun q =>
        { q with dest := .recovering, brake := some (setAxis .setting u).store.live.brakeTime }) := by
      simp [enterSetting, hb, confirmSet]
    rw [hc]
    refine ⟨?_, by simp [brakeRel, brakeRelIn], by simp [seqIn], by simp [hb, seqIn]⟩
    rw [setAxis_recovery_eq, onSeq_sup, hset]
    simp [presenceIn, hp]

/-- With no follow cue PENDING, an outcome that lets chains run on moves none (R77). -/
theorem moveChains_quiet {o : CueOutcome} (ho : runsOn o = true) (h : ∀ a ∈ s.ctl.armed, a.trigger ≠ some .pending) :
    moveChains o s = s := by
  have hmap : (s.ctl.armed.map fun a =>
      if a.trigger = some .pending then { a with trigger := some (.delaying (delayOf s a.cue)) } else a) = s.ctl.armed := by
    conv_rhs => rw [← List.map_id s.ctl.armed]
    exact List.map_congr_left fun a hmem => if_neg (h a hmem)
  rw [moveChains, if_pos ho]
  simp only [State.onCtl, hmap]

/-- A start within the in-position band ends its cue ARRIVED without a move (R68, R73). -/
theorem startCue_inBand (hcue : r.cue.number = cue) (hb : withinBand s r = true)
    (hpend : ∀ a ∈ s.ctl.armed.filter (fun a => decide (a.cue ≠ cue)), a.trigger ≠ some .pending) :
    startCue r s = removeContext (newContext s.station s.peers r) .arrived 0
      ((begun r s).onGen fun g => { g with progress := 4096 }) := by
  rw [startCue_eq, if_pos hb, endInBand, (begun_facts r s).1]
  refine moveChains_quiet rfl fun a hmem => hpend a ?_
  rw [removeContext_ctl, ← hcue] at *
  exact hmem

/-- A GO that passes its tests on a PARKED axis, no delay of another cue waiting (R67). -/
structure GoTaken (s : State) (h : Hdr) (cue : Nat) (r : CueRecord) : Prop where
  taken : consoleFrameTaken s h = true
  found : findCue s.table cue = some r
  armed : isArmed s cue = true
  noContext : s.ctl.ctx = none
  parked : s.seq.axis = .parked
  notHoming : s.seq.startReq ≠ .home
  referenced : s.meas.referenced = true
  enabled : s.ctl.enableFresh = true
  group : groupVerdict s.station s.peers r = none
  delays : ∀ a ∈ s.ctl.armed, a.cue ≠ cue → a.trigger ≠ some (.delaying 0)

/-- The armed list without a cue. -/
def othersArmed (s : State) (cue : Nat) : List ArmedCue := s.ctl.armed.filter fun a => decide (a.cue ≠ cue)

theorem GoTaken.number {h : Hdr} (g : GoTaken s h cue r) : r.cue.number = cue := (findCue_some g.found).2

theorem GoTaken.answers {h : Hdr} (g : GoTaken s h cue r) (hu : startCue r s = u)
    (hothers : u.ctl.armed = othersArmed s cue) {p : State → Prop} (hp : p (finish u)) : Answers (exec (.go h cue) s) p := by
  subst hu
  refine ⟨_, exec_go_starts g.taken g.found g.armed g.noContext g.parked g.notHoming g.referenced g.enabled g.group
    fun a hmem => ?_, hp⟩
  rw [hothers, othersArmed, List.mem_filter] at hmem
  exact g.delays a hmem.1 (by simpa using hmem.2)

/-- In the band: the cue ends ARRIVED at 4096 without a move. -/
theorem GoTaken.inBand {h : Hdr} (g : GoTaken s h cue r) (hband : withinBand s r = true)
    (hpend : ∀ a ∈ othersArmed s cue, a.trigger ≠ some .pending) : Answers (exec (.go h cue) s) fun t =>
      t.seq.axis = .parked ∧ t.seq.startReq = s.seq.startReq ∧ t.gen.s = s.gen.s ∧ t.gen.v = s.gen.v ∧
        t.gen.progress = 4096 ∧ t.gen.fired = [] ∧
        t.ctl = { s.ctl with
          armed := othersArmed s cue, ctx := none, lastEvent := some (.ended cue .arrived 0) } ∧
        t.line.markLost = false ∧ t.line.marks = s.line.marks ∧ t.peers = releasePeers cue s.peers ∧
        t.guard = s.guard ∧ t.sup.latched = s.sup.latched ∧ base t = base s ∧ still t = still s := by
  have hcue := g.number
  obtain ⟨b1, b2, b3, b4, b5, b6, b7, b8, b9, -⟩ := begun_facts r s
  have hu := startCue_inBand hcue hband hpend
  rw [removeContext_eq] at hu
  generalize hv : (begun r s).onGen (fun g => { g with progress := 4096 }) = v at hu
  have hgen : v.gen = { (begun r s).gen with progress := 4096 } := by rw [← hv]; rfl
  have hctl : v.ctl = (begun r s).ctl := by rw [← hv]; rfl
  have hseq : v.seq = s.seq := by rw [← hv]; exact b4
  have hline : v.line = { s.line with markLost := false } := by rw [← hv]; exact b3
  have hpeers : v.peers = s.peers := by rw [← hv]; exact b5
  have hguard : v.guard = s.guard := by rw [← hv]; exact b6
  have hsup : v.sup = s.sup := by rw [← hv]; exact b7
  have hbase : base v = base s := by rw [← hv]; exact b8
  have hstill : still v = still s := by rw [← hv]; exact b9
  rw [b2] at hgen
  rw [b1] at hctl
  refine g.answers hu (by rw [hctl, hcue]; rfl) ?_
  refine ⟨?_, ?_, ?_, ?_, ?_, ?_, ?_, ?_, ?_, ?_, ?_, ?_, ?_, ?_⟩
  · rw [finish_seq]; exact (congrArg (·.axis) hseq).trans g.parked
  · rw [finish_seq]; exact congrArg (·.startReq) hseq
  · rw [finish_gen_s, hgen]
  · rw [finish_gen_v, hgen]
  · rw [finish_gen_progress, hgen]
  · rw [finish_gen_fired]
  · rw [finish_ctl, hctl, ← hcue]; rfl
  · rw [finish_markLost, hline]
  · rw [finish_marks, hline]
  · rw [finish_peers, hpeers, ← hcue]; rfl
  · rw [finish_guard, hguard]
  · rw [finish_sup, hsup]
  · rw [finish_base]; exact hbase
  · rw [finish_still]; exact hstill

/-- On an axis that has left PARKED the rest timer is stopped. -/
theorem rest_of_left (h : u.seq.axis ≠ .parked) : (finish u).seq.rest = none := by
  rw [finish_seq]; exact restFollow_stopped _ h

theorem goReleasing_seq (r : CueRecord) (s : State) : (goReleasing r s).seq =
    { seqIn .releasing s.seq with startReq := .cue, brake := some s.store.live.brakeTime } := releasing_seq _ _

theorem goReleasing_ctl (hcue : r.cue.number = cue) : (goReleasing r s).ctl = { s.ctl with
    armed := othersArmed s cue
    ctx := some (newContext s.station s.peers r)
    lastEvent := some (.started cue) } := by
  obtain ⟨-, -, -, -, h, -⟩ := goReleasing_going (s := s) hcue
  exact h

/-- The brake still set: the cue waits in RELEASING. -/
theorem GoTaken.waits {h : Hdr} (g : GoTaken s h cue r) (hband : withinBand s r = false)
    (hno : ∀ d ∈ s.sup.present, classOf s d ≠ .recover) (hb : s.inp.brakeReleased = false) :
    Answers (exec (.go h cue) s) fun t =>
      (Going cue (othersArmed s cue) (newContext s.station s.peers r) s t ∧ t.seq.rest = none) ∧
        t.seq.axis = .releasing ∧ t.seq.startReq = .cue ∧ t.seq.brake = some s.store.live.brakeTime ∧
          brakeRel t = true ∧ (s.inp.loopOpen = false → driveEn t = true) := by
  have hq : startCue r s = goReleasing r s := by
    rw [startCue_parked g.parked hband, beginRelease_quiet (s := begun r s) hno]
    exact if_neg (by simpa [begun] using hb)
  obtain ⟨-, -, -, hrel, hdrive, -⟩ := releasing_rest .cue (begun r s)
  have hseq := goReleasing_seq r s
  refine g.answers hq (congrArg (·.armed) (goReleasing_ctl g.number)) ⟨⟨(goReleasing_going g.number).finish, ?_⟩, ?_, ?_, ?_,
    ?_, fun hl => ?_⟩
  · exact rest_of_left (by simp [hseq])
  · simp [hseq]
  · simp [hseq]
  · simp [hseq]
  · rw [finish_brakeRel]; exact hrel
  · rw [finish_driveEn]; exact hdrive hl

/-- The brake released already and no member breaking the group: the move is fixed at once. -/
theorem GoTaken.moves {h : Hdr} (g : GoTaken s h cue r) (hband : withinBand s r = false)
    (hno : ∀ d ∈ s.sup.present, classOf s d ≠ .recover) (hb : s.inp.brakeReleased = true)
    (hbreak : ∀ v ∈ (newContext s.station s.peers r).views, ∀ c, memberContents s.peers v.1 = some c →
      breaksGroup cue c v.2 = false) :
    Answers (exec (.go h cue) s) fun t =>
      (Going cue (othersArmed s cue) { newContext s.station s.peers r with
          move := some (fixMove s.store.live r.cue s.meas.measured.toNat), phase := .running } s t ∧ t.seq.rest = none) ∧
        t.seq.axis = .moving ∧ t.seq.startReq = .none ∧ t.seq.brake = none ∧ brakeRel t = true := by
  have hgoing := goReleasing_going (s := s) g.number
  have hx : (goReleasing r s).ctl.ctx = some (newContext s.station s.peers r) := congrArg (·.ctx) (goReleasing_ctl g.number)
  have hpeers : (goReleasing r s).peers = s.peers := hgoing.2.2.2.2.2.2.2.1
  have hq : startCue r s = launched (newContext s.station s.peers r) (goReleasing r s) := by
    rw [startCue_parked g.parked hband, beginRelease_quiet (s := begun r s) hno]
    refine (if_pos hb).trans (completeRelease_launches hx rfl ?_)
    rintro v hv ⟨c, hc, hbr⟩
    have hquiet := hbreak v hv c (by rw [← hpeers]; exact hc)
    rw [← g.number] at hquiet
    exact absurd (hbr.symm.trans hquiet) (by decide)
  obtain hlaunch := launched_going hgoing rfl
  refine g.answers hq ?_ ⟨⟨hlaunch.finish, ?_⟩, ?_, ?_, ?_, ?_⟩
  · exact congrArg (·.armed) hlaunch.2.2.2.2.1
  · exact rest_of_left (by simp [launched])
  · simp [launched]
  · simp [launched, seqIn]
  · simp [launched, seqIn]
  · simp [launched, brakeRel, brakeRelIn]

/-- The started cue with its first recovery, by OVERLOAD, recorded (R145). -/
def goRecovering (r : CueRecord) (s : State) : State :=
  (onCtx (fun y => { y with recoveries := y.recoveries + 1 }) (goReleasing r s)).onSup fun p =>
    { p with recovery := some ⟨[.overload], none, 0⟩ }

theorem goRecovering_going (hcue : r.cue.number = cue) : Going cue (othersArmed s cue)
    { newContext s.station s.peers r with recoveries := 1 } s (goRecovering r s) := by
  obtain ⟨g1, g2, g3, g4, -, g⟩ := goReleasing_going (s := s) hcue
  refine ⟨g1, g2, g3, g4, ?_, g⟩
  simp only [goRecovering, onCtx, onSup_ctl, onCtl_ctl, goReleasing_ctl hcue, Option.map_some]
  rfl

theorem goRecovering_present (hp : isPresent s .overload = true) : Condition.overload ∈ (goRecovering r s).sup.present := by
  have : (goRecovering r s).sup.present = (presenceIn .releasing s.sup).present := by
    change (releasing .cue (begun r s)).sup.present = _
    simp [releasing]
    rfl
  rw [this]
  simp only [isPresent, List.contains_eq_mem, decide_eq_true_eq] at hp
  simp [presenceIn, hp]

theorem Going.enterSetting {others : List ArmedCue} {x : CueContext} (h : Going cue others x s u) :
    Going cue others x s (enterSetting .recovering u) := by
  unfold Machine.enterSetting
  dsimp only
  split
  · exact (h.setAxis (by decide)).onSeq _
  · exact ((h.setAxis (by decide)).onSeq _).setAxis (by decide)

/-- OVERLOAD under RECOVER: the first recovery begins and the brake is set toward RECOVERING. -/
theorem GoTaken.recovers {h : Hdr} (g : GoTaken s h cue r) (hband : withinBand s r = false)
    (hrec : s.sup.recovery = none) (hp : isPresent s .overload = true) (hc : classOf s .overload = .recover)
    (hothers : ∀ d ∈ s.sup.present, d ≠ .overload → classOf s d ≠ .recover) :
    Answers (exec (.go h cue) s) fun t =>
      (Going cue (othersArmed s cue) { newContext s.station s.peers r with recoveries := 1 } s t ∧ t.seq.rest = none) ∧
        t.sup.recovery = some ⟨[.overload], none, 0⟩ ∧ brakeRel t = false ∧ t.seq.startReq = .none ∧
        (if s.inp.brakeReleased then
          t.seq.axis = .setting ∧ t.seq.dest = .recovering ∧ t.seq.brake = some s.store.live.brakeTime
        else t.seq.axis = .recovering ∧ t.seq.brake = none) := by
  have hq : startCue r s = enterSetting .recovering (goRecovering r s) :=
    (startCue_parked g.parked hband).trans
      (beginRelease_overload (u := begun r s) (x := newContext s.station s.peers r) rfl rfl hrec (Nat.zero_lt_succ 2) hp hc hothers)
  have hw := goRecovering_going (s := s) g.number
  obtain ⟨e1, e2, e3, e4⟩ := enterSetting_overload (u := goRecovering r s) rfl (goRecovering_present hp)
  obtain ⟨-, -, -, -, hinp, -, hstore, -⟩ := (base_eq_iff _ _).1 hw.2.2.2.2.2.2.2.2.2.2.1
  rw [hinp, hstore] at e4
  have hparked : (enterSetting .recovering (goRecovering r s)).seq.axis ≠ .parked := by
    intro h
    split at e4 <;> rw [e4.1] at h <;> cases h
  refine g.answers hq ?_ ⟨⟨hw.enterSetting.finish, rest_of_left hparked⟩, ?_, ?_, ?_, ?_⟩
  · exact congrArg (·.armed) hw.enterSetting.2.2.2.2.1
  · rw [finish_sup]; exact e1
  · rw [finish_brakeRel]; exact e2
  · rw [finish_seq]; exact e3
  · rw [finish_seq]; exact e4

/-- Settles O37. -/
theorem goReleasesParkedAxis : Obligations.GoReleasesParkedAxis := by
  intro s h cue r hs ht hr harm hctx ha hreq hm he hg hd
  have g : GoTaken s h cue r := ⟨ht, hr, harm, hctx, ha, hreq, hm, he, hg, hd⟩
  refine ⟨g.inBand, fun hband hno => ⟨fun hb => ?_, fun hb hbreak => ?_⟩, fun hband hrec hp hc hothers => ?_⟩
  · obtain ⟨t, h1, ⟨⟨g1, g2, g3, g4, g5⟩, h2⟩, h3⟩ := g.waits hband hno hb
    exact ⟨t, h1, ⟨g1, g2, g3, g4, h2, g5⟩, h3⟩
  · obtain ⟨t, h1, ⟨⟨g1, g2, g3, g4, g5⟩, h2⟩, h3⟩ := g.moves hband hno hb hbreak
    exact ⟨t, h1, ⟨g1, g2, g3, g4, h2, g5⟩, h3⟩
  · obtain ⟨t, h1, ⟨⟨g1, g2, g3, g4, g5⟩, h2⟩, h3⟩ := g.recovers hband hrec hp hc hothers
    exact ⟨t, h1, ⟨g1, g2, g3, g4, h2, g5⟩, h3⟩

end go

end Sys2Proof.Machine


/-! PROOFS. The line port: the STATUS built, the attempts, the frames received; a STATUS read back by a peer. -/

namespace Sys2Proof.Machine

section port
variable {s : State} {l : LinePort}

/-! ## Queues by place -/

theorem oldestReply_append {l₁ l₂ : List (Queued ReplyBody)} {f : Queued ReplyBody} (hf : sendable f.body = true)
    (h : ∀ q ∈ l₁, sendable q.body = false) : oldestReply (l₁ ++ f :: l₂) = some l₁.length := by
  induction l₁ with
  | nil => simp [oldestReply, List.findIdx?_cons, hf]
  | cons q l₁ ih =>
    have hq := h q (by simp)
    have := ih fun p hp => h p (by simp [hp])
    simp only [oldestReply] at this ⊢
    simp [List.findIdx?_cons, hq, this]

theorem oldestReply_none {l : List (Queued ReplyBody)} (h : ∀ q ∈ l, sendable q.body = false) : oldestReply l = none := by
  simpa [oldestReply, List.findIdx?_eq_none_iff] using h

theorem changeAt_append {α : Type} (g : α → α) (l₁ l₂ : List α) (a : α) :
    changeAt g l₁.length (l₁ ++ a :: l₂) = l₁ ++ g a :: l₂ := by
  induction l₁ with
  | nil => rfl
  | cons b l₁ ih => simp [changeAt, ih]

theorem eraseIdx_append_self {α : Type} (l₁ l₂ : List α) (a : α) : (l₁ ++ a :: l₂).eraseIdx l₁.length = l₁ ++ l₂ := by
  simp [List.eraseIdx_append_of_length_le]

theorem seqAfter_eq {α : Type} (l : LinePort) (f : Queued α) :
    seqAfter l f = if f.seq = none then l.seqCount + 1 else l.seqCount := by
  unfold seqAfter
  cases f.seq <;> rfl

/-! ## STATUS -/

theorem buildStatus_silent (h : addressed s = false) : buildStatus s = s := if_neg (by simp [h])

theorem exec_statusTimer (h : s.line.timer.isSome = true) : exec .statusTimerExpiry s = .next (buildStatus s) := if_pos h

/-! ## Attempts -/

theorem exec_transmit (ha : addressed s = true) (hn : s.line.attempt = none) :
    exec .transmitAttempt s = .next (s.onLine beginAttempt) := if_pos (by simp [ha, hn])

theorem beginAttempt_mark {m : Queued MarkBody} {rest : List (Queued MarkBody)} (h : l.marks = m :: rest) :
    beginAttempt l = { attempting l .mark (.mark m.body) m with marks := counted l m :: rest } := by
  simp only [beginAttempt, h, seqAfter_eq]
  rfl

theorem beginAttempt_status {f : Queued Status} (hm : l.marks = []) (h : l.status = some f) :
    beginAttempt l = { attempting l .status (.status f.body) f with status := some (counted l f) } := by
  have hl : { l with marks := [] } = l := by rw [← hm]
  simp only [beginAttempt, hm, h, seqAfter_eq]
  exact congrArg (fun p : LinePort => { attempting p .status (.status f.body) f with status := some (counted l f) }) hl

theorem beginAttempt_reply {l₁ l₂ : List (Queued ReplyBody)} {f : Queued ReplyBody} (hm : l.marks = []) (hs : l.status = none)
    (h : l.replies = l₁ ++ f :: l₂) (hf : sendable f.body = true) (hno : ∀ q ∈ l₁, sendable q.body = false) :
    beginAttempt l =
      { attempting l (.reply l₁.length) (.reply f.body) f with replies := l₁ ++ counted l f :: l₂ } := by
  have hfind : (oldestReply l.replies).bind (fun i => (l.replies[i]?).map fun f => (i, f)) = some (l₁.length, f) := by
    rw [h, oldestReply_append hf hno]
    simp
  have hchange : changeAt (fun _ => withSeq l f) l₁.length l.replies = l₁ ++ withSeq l f :: l₂ := by
    rw [h, changeAt_append]
  have hl : { l with marks := [], status := none } = l := by rw [← hm, ← hs]
  simp only [beginAttempt, hm, hs, hfind, hchange, seqAfter_eq]
  exact congrArg (fun p : LinePort =>
    { attempting p (.reply l₁.length) (.reply f.body) f with replies := l₁ ++ counted l f :: l₂ }) hl

theorem beginAttempt_last (hm : l.marks = []) (hs : l.status = none) (hno : ∀ q ∈ l.replies, sendable q.body = false) :
    beginAttempt l = match l.announce with
      | some f => { attempting l .announce (.announce f.body) f with announce := some (counted l f) }
      | none => l := by
  have hl : { l with marks := [], status := none } = l := by rw [← hm, ← hs]
  simp only [beginAttempt, hm, hs, oldestReply_none hno, Option.bind_none, seqAfter_eq]
  cases l.announce with
  | none => rfl
  | some f =>
    exact congrArg (fun p : LinePort => { attempting p .announce (.announce f.body) f with announce := some (counted l f) })
      hl

/-! ## Ends of attempts -/

theorem exec_frameSent {a : Attempt} (h : s.line.attempt = some a) :
    exec .frameSent s = .next (s.onLine fun l => { leaveStore a l with attempt := none }) := by
  simp [exec, execFrameSent, h]

theorem exec_attemptFailed {a : Attempt} (h : s.line.attempt = some a) :
    exec .attemptFailed s = .next (s.onLine (failAttempt s.station a)) := by
  simp [exec, execAttemptFailed, h]

/-- A failure short of the eighth raises the count and draws the backoff (R156). -/
theorem failAttempt_counted {a : Attempt} {n : Nat} (h : a.attempts < 7) : failAttempt n a l =
    { countAttempt a l with attempt := none, backoff := some (4 * n + 256 * a.attempts) } := by
  have : ¬8 ≤ a.attempts + 1 := by omega
  simp [failAttempt, this, backoffOf]

/-- The eighth failure drops the frame (R157). -/
theorem failAttempt_dropped {a : Attempt} {n : Nat} (h : 7 ≤ a.attempts) : failAttempt n a l =
    { dropConsequence a (leaveStore a l) with attempt := none, backoff := some (4 * n + 256 * a.attempts) } := by
  simp [failAttempt, h, backoffOf]

theorem lineHeader_of {a : Attempt} (h : s.line.attempt = some a) : lineHeader s = (match a.body with
    | .status _ => some ⟨1, s.station, 0, a.seq⟩
    | .mark _ => some ⟨2, s.station, 0, a.seq⟩
    | .announce _ => some ⟨3, s.station, 0, a.seq⟩
    | .reply (.reply r) => some ⟨4, s.station, r.addressee, a.seq⟩
    | .reply (.report r) => some ⟨5, s.station, r.addressee, a.seq⟩
    | .reply (.reservation _ _ _) => none) := by
  rw [lineHeader, h]
  rcases hb : a.body with _ | _ | b | _
  · simp [hb, txKind, txAddressee]
  · simp [hb, txKind, txAddressee]
  · cases b <;> simp [hb, txKind, txAddressee]
  · simp [hb, txKind, txAddressee]

/-! ## Frames received -/

theorem exec_frameDiscarded (raw : List Byte) (s : State) : exec (.frameDiscarded raw) s =
    match receivedFrame s raw with
    | none => .next s
    | some i => handOn i s := rfl

theorem receivedFrame_silent {raw : List Byte} (h : addressed s = false ∨ checkPasses raw = false) :
    receivedFrame s raw = none := by
  have : handedOn s raw = false := by
    unfold handedOn
    rcases h with h | h <;> simp [h]
  simp [receivedFrame, this]

theorem kindSide_range {kind : Nat} {side : SenderSide} (h : kindSide kind = some side) : kind < 256 := by
  unfold kindSide at h
  split at h <;> simp at h ⊢

/-- The check of a frame as it is sent passes (R153). -/
theorem checkPasses_wireFrame {kind sender addressee : Nat} {seq : Byte} {payload : List Byte} (h : payload.length ≤ 88) :
    checkPasses (wireFrame kind sender addressee seq payload) = true := by
  have hlen : (BitVec.ofNat 8 payload.length).toNat = payload.length := by
    rw [BitVec.toNat_ofNat]; omega
  generalize hbody : [BitVec.ofNat 8 kind, BitVec.ofNat 8 sender, BitVec.ofNat 8 addressee, seq,
    BitVec.ofNat 8 payload.length] ++ payload = body
  have hblen : body.length = 5 + payload.length := by rw [← hbody]; simp; omega
  have hwire : wireFrame kind sender addressee seq payload = body ++ bytes2 (check16 body) := by
    rw [← hbody]; rfl
  have htake : (body ++ bytes2 (check16 body)).take (5 + payload.length) = body := by
    rw [← hblen, List.take_left']; rfl
  have hdrop : (body ++ bytes2 (check16 body)).drop (5 + payload.length) = bytes2 (check16 body) := by
    rw [← hblen, List.drop_left']; rfl
  have hall : (body ++ bytes2 (check16 body)).length = 7 + payload.length := by
    rw [List.length_append, hblen]; simp [bytes2]; omega
  have hcheck : checkPasses (wireFrame kind sender addressee seq payload) =
      (decide ((BitVec.ofNat 8 payload.length).toNat ≤ 88) &&
        decide ((wireFrame kind sender addressee seq payload).length = 7 + (BitVec.ofNat 8 payload.length).toNat) &&
        decide ((wireFrame kind sender addressee seq payload).drop (5 + (BitVec.ofNat 8 payload.length).toNat) =
          bytes2 (check16 ((wireFrame kind sender addressee seq payload).take
            (5 + (BitVec.ofNat 8 payload.length).toNat))))) := rfl
  rw [hcheck, hlen, hwire, hall, hdrop, htake]
  simp [h]

/-- A frame that passes the filter is received as the command it spells (R158, R159). -/
theorem receivedFrame_wireFrame {kind sender addressee : Nat} {seq : Byte} {payload : List Byte} {side : SenderSide}
    (ha : addressed s = true) (hk : kindSide kind = some side) (hs : sender < 64) (hside : sender < 48 ↔ side = .axis)
    (h0 : sender ≠ 0) (hadd : addressee < 64) (hto : addressee = 0 ∨ addressee = s.station) (hlen : payload.length ≤ 88)
    (htab : ∀ n ∈ tabledLength kind, payload.length = n) (hno : kind ∉ [3, 4, 5]) :
    receivedFrame s (wireFrame kind sender addressee seq payload) = readFrame kind ⟨sender, addressee, seq⟩ payload := by
  have hkind : (BitVec.ofNat 8 kind).toNat = kind := by
    have := kindSide_range hk
    rw [BitVec.toNat_ofNat]; omega
  have hsender : (BitVec.ofNat 8 sender).toNat = sender := by rw [BitVec.toNat_ofNat]; omega
  have haddr : (BitVec.ofNat 8 addressee).toNat = addressee := by rw [BitVec.toNat_ofNat]; omega
  have hplen : (BitVec.ofNat 8 payload.length).toNat = payload.length := by rw [BitVec.toNat_ofNat]; omega
  have hpasses : filterPasses s side sender addressee = true := by
    cases side
    · have := hside.2 rfl
      simp [filterPasses, h0, hto]; omega
    · have : ¬sender < 48 := fun h => by cases hside.1 h
      simp [filterPasses, h0, hto]; omega
  have htabled : (match tabledLength kind with
      | none => true
      | some n => decide (payload.length = n)) = true := by
    cases ht : tabledLength kind with
    | none => rfl
    | some n => simpa using htab n ht
  have hhanded : handedOn s (wireFrame kind sender addressee seq payload) = (addressed s &&
      checkPasses (wireFrame kind sender addressee seq payload) &&
        ((match kindSide (BitVec.ofNat 8 kind).toNat with
          | none => false
          | some side => filterPasses s side (BitVec.ofNat 8 sender).toNat (BitVec.ofNat 8 addressee).toNat) &&
        (match tabledLength (BitVec.ofNat 8 kind).toNat with
          | none => true
          | some n => decide ((BitVec.ofNat 8 payload.length).toNat = n)) &&
        !(decide ((BitVec.ofNat 8 kind).toNat = 3) || decide ((BitVec.ofNat 8 kind).toNat = 4) ||
          decide ((BitVec.ofNat 8 kind).toNat = 5)))) := rfl
  have hgood : handedOn s (wireFrame kind sender addressee seq payload) = true := by
    rw [hhanded, hkind, hsender, haddr, hplen, htabled, ha, checkPasses_wireFrame hlen, hk]
    simp only [List.mem_cons, List.not_mem_nil, or_false, not_or] at hno
    simp [hpasses, hno]
  have hread : receivedFrame s (wireFrame kind sender addressee seq payload) =
      if handedOn s (wireFrame kind sender addressee seq payload) then
        readFrame (BitVec.ofNat 8 kind).toNat
          ⟨(BitVec.ofNat 8 sender).toNat, (BitVec.ofNat 8 addressee).toNat, seq⟩
          ((payload ++ bytes2 (check16 ([BitVec.ofNat 8 kind, BitVec.ofNat 8 sender, BitVec.ofNat 8 addressee, seq,
            BitVec.ofNat 8 payload.length] ++ payload))).take (BitVec.ofNat 8 payload.length).toNat)
      else none := rfl
  rw [hread, if_pos hgood, hkind, hsender, haddr, hplen, List.take_left']
  rfl

/-! ## O59 -/

theorem exec_statusTimer_builds (ha : addressed s = true) (h : s.line.timer.isSome = true) :
    exec .statusTimerExpiry s = .next { s with
      gen := { s.gen with overrun := false }
      line := { s.line with
        status := some ⟨(s.line.status.map (·.attempts)).getD 0, none, statusOf s⟩
        timer := some s.store.live.statusInterval
        attempt := s.line.attempt.map fun a => if a.store = .status then { a with superseded := true } else a } } := by
  rw [exec_statusTimer h, buildStatus, if_pos ha]
  rfl

/-- How a mark's attempt ends: `ended` and `failed` of O59 for the MARK queue. -/
theorem attempt_mark {a : Attempt} {m : Queued MarkBody} {rest : List (Queued MarkBody)} (h : s.line.attempt = some a)
    (hst : a.store = .mark) (hm : s.line.marks = m :: rest) :
    exec .frameSent s = .next { s with line := { s.line with marks := rest, attempt := none } } ∧
    (a.attempts < 7 → exec .attemptFailed s = .next { s with
      line := { s.line with
        marks := { m with attempts := a.attempts + 1 } :: rest
        attempt := none
        backoff := some (4 * s.station + 256 * a.attempts) } }) ∧
    (7 ≤ a.attempts → exec .attemptFailed s = .next { s with
      line := { s.line with
        marks := rest
        markLost := true
        attempt := none
        backoff := some (4 * s.station + 256 * a.attempts) } }) := by
  have hleave : leaveStore a s.line = { s.line with marks := rest } := by simp [leaveStore, hst, hm]
  refine ⟨?_, fun hn => ?_, fun hn => ?_⟩
  · rw [exec_frameSent h]
    exact congrArg (fun l : LinePort => Host.Outcome.next { s with line := { l with attempt := none } }) hleave
  · have hcount : countAttempt a s.line = { s.line with marks := { m with attempts := a.attempts + 1 } :: rest } := by
      simp [countAttempt, hst, hm, changeAt]
    rw [exec_attemptFailed h, State.onLine, failAttempt_counted hn, hcount]
  · have hdrop : dropConsequence a (leaveStore a s.line) = { s.line with marks := rest, markLost := true } := by
      simp [dropConsequence, hst, hleave]
    rw [exec_attemptFailed h, State.onLine, failAttempt_dropped hn, hdrop]

theorem attempt_status {a : Attempt} (h : s.line.attempt = some a) (hst : a.store = .status) :
    exec .frameSent s = .next { s with
      line := { s.line with
        status := if a.superseded then s.line.status.map fun f => { f with attempts := 0 } else none
        attempt := none } } ∧
    (a.attempts < 7 → exec .attemptFailed s = .next { s with
      line := { s.line with
        status := s.line.status.map fun f => { f with attempts := a.attempts + 1 }
        attempt := none
        backoff := some (4 * s.station + 256 * a.attempts) } }) ∧
    (7 ≤ a.attempts → exec .attemptFailed s = .next { s with
      line := { s.line with
        status := if a.superseded then s.line.status.map fun f => { f with attempts := 0 } else none
        attempt := none
        backoff := some (4 * s.station + 256 * a.attempts) } }) := by
  refine ⟨?_, fun hn => ?_, fun hn => ?_⟩
  · simp [exec_frameSent h, State.onLine, leaveStore, hst]
  · simp [exec_attemptFailed h, State.onLine, failAttempt_counted hn, countAttempt, hst]
  · simp [exec_attemptFailed h, State.onLine, failAttempt_dropped hn, dropConsequence, leaveStore, hst]

theorem attempt_reply {a : Attempt} {l₁ l₂ : List (Queued ReplyBody)} {f : Queued ReplyBody}
    (h : s.line.attempt = some a) (hst : a.store = .reply l₁.length) (hr : s.line.replies = l₁ ++ f :: l₂) :
    exec .frameSent s = .next { s with line := { s.line with replies := l₁ ++ l₂, attempt := none } } ∧
    (a.attempts < 7 → exec .attemptFailed s = .next { s with
      line := { s.line with
        replies := l₁ ++ { f with attempts := a.attempts + 1 } :: l₂
        attempt := none
        backoff := some (4 * s.station + 256 * a.attempts) } }) ∧
    (7 ≤ a.attempts → exec .attemptFailed s = .next { s with
      line := { s.line with
        replies := l₁ ++ l₂
        attempt := none
        backoff := some (4 * s.station + 256 * a.attempts) } }) := by
  refine ⟨?_, fun hn => ?_, fun hn => ?_⟩
  · simp [exec_frameSent h, State.onLine, leaveStore, hst, hr, eraseIdx_append_self]
  · simp [exec_attemptFailed h, State.onLine, failAttempt_counted hn, countAttempt, hst, hr, changeAt_append]
  · simp [exec_attemptFailed h, State.onLine, failAttempt_dropped hn, dropConsequence, leaveStore, hst, hr,
      eraseIdx_append_self]

theorem attempt_announce {a : Attempt} (h : s.line.attempt = some a) (hst : a.store = .announce) :
    exec .frameSent s = .next { s with
      line := { s.line with
        announce := if a.superseded then s.line.announce.map fun f => { f with attempts := 0 } else none
        attempt := none } } ∧
    (a.attempts < 7 → exec .attemptFailed s = .next { s with
      line := { s.line with
        announce :=
          if a.superseded then s.line.announce else s.line.announce.map fun f => { f with attempts := a.attempts + 1 }
        attempt := none
        backoff := some (4 * s.station + 256 * a.attempts) } }) ∧
    (7 ≤ a.attempts → exec .attemptFailed s = .next { s with
      line := { s.line with
        announce := if a.superseded then s.line.announce.map fun f => { f with attempts := 0 } else none
        attempt := none
        backoff := some (4 * s.station + 256 * a.attempts) } }) := by
  refine ⟨?_, fun hn => ?_, fun hn => ?_⟩
  · simp [exec_frameSent h, State.onLine, leaveStore, hst]
  · cases hsup : a.superseded <;>
      simp [exec_attemptFailed h, State.onLine, failAttempt_counted hn, countAttempt, hst, hsup]
  · simp [exec_attemptFailed h, State.onLine, failAttempt_dropped hn, dropConsequence, leaveStore, hst]

end port

/-- Settles O59: one clause per store of the transmit side, by the equation of what an attempt takes from it and how it
ends; a frame handed on is `exec` of the command it spells. -/
theorem portSendsFrames : Obligations.PortSendsFrames := by
  intro s
  refine ⟨fun h => ?_, fun ha ht => exec_statusTimer_builds ha ht, fun h => ?_, fun ha hn => ⟨fun m rest hm => ?_,
    fun f hm hf => ?_, fun l₁ f l₂ hm hs hl hf hno => ?_, fun hm hs hno => ⟨fun f hf => ?_, fun hf => ?_⟩⟩,
    fun h => ⟨?_, ?_⟩, fun a ha => ⟨lineHeader_of ha, fun m rest hst hm => attempt_mark ha hst hm,
      fun hst => attempt_status ha hst, fun l₁ f l₂ hst hl => attempt_reply ha hst hl,
      fun hst => attempt_announce ha hst⟩,
    fun raw => ⟨fun h => ?_, fun h => ?_, fun i h => ?_⟩, ?_⟩
  · by_cases ht : s.line.timer.isSome = true
    · rw [exec_statusTimer ht, buildStatus_silent]
      rcases h with h | h
      · exact h
      · simp [h] at ht
    · exact if_neg ht
  · refine if_neg ?_
    rcases h with h | h
    · simp [h]
    · simp [Option.isSome_iff_ne_none.1 h]
  · rw [exec_transmit ha hn, State.onLine, beginAttempt_mark hm]
  · rw [exec_transmit ha hn, State.onLine, beginAttempt_status hm hf]
  · rw [exec_transmit ha hn, State.onLine, beginAttempt_reply hm hs hl hf hno]
  · rw [exec_transmit ha hn, State.onLine, beginAttempt_last hm hs hno, hf]
  · rw [exec_transmit ha hn, State.onLine, beginAttempt_last hm hs hno, hf]
  · simp [exec, execFrameSent, h]
  · simp [exec, execAttemptFailed, h]
  · rw [exec_frameDiscarded, receivedFrame_silent h]
  · rw [exec_frameDiscarded, h]
  · rw [exec_frameDiscarded, h]
    exact receivedFrame_handOn h
  · intro kind side sender addressee seq payload ha hk hs hside h0 hadd hto hlen htab hno
    have hread := receivedFrame_wireFrame (seq := seq) ha hk hs hside h0 hadd hto hlen htab hno
    rw [exec_frameDiscarded, hread]
    cases hi : readFrame kind ⟨sender, addressee, seq⟩ payload with
    | none => rfl
    | some i => exact receivedFrame_handOn (hread.trans hi)

end Sys2Proof.Machine


/-! PROOFS. A STATUS payload read back by a peer: the byte forms and their readings. -/

namespace Sys2Proof.Machine

/-! ## Bytes read back -/

theorem read2_ofNat {n : Nat} (h : n < 65536) :
    read2 ((BitVec.ofNat 16 n).extractLsb' 8 8) ((BitVec.ofNat 16 n).extractLsb' 0 8) = n := by
  simp only [read2, BitVec.extractLsb'_toNat, BitVec.toNat_ofNat, Nat.shiftRight_eq_div_pow]
  omega

theorem read2_check (c : Check) : BitVec.ofNat 16 (read2 (c.extractLsb' 8 8) (c.extractLsb' 0 8)) = c := by
  have hc := c.isLt
  apply BitVec.eq_of_toNat_eq
  simp only [read2, BitVec.extractLsb'_toNat, BitVec.toNat_ofNat, Nat.shiftRight_eq_div_pow]
  omega

theorem read4_word32 {n : Nat} (h : n < 4294967296) : read4 ((word32 n).extractLsb' 24 8)
    ((word32 n).extractLsb' 16 8) ((word32 n).extractLsb' 8 8) ((word32 n).extractLsb' 0 8) = n := by
  rw [word32, if_pos h]
  simp only [read4, BitVec.extractLsb'_toNat, BitVec.toNat_ofNat, Nat.shiftRight_eq_div_pow]
  omega

theorem sendingState_code {a : AxisState} (h : a ≠ .unaddressed) :
    sendingState (BitVec.ofNat 8 a.code).toNat = some a := by
  cases a with
  | unaddressed => exact absurd rfl h
  | _ => rfl

theorem phaseOfCode_phaseCode (p : Option CuePhase) : phaseOfCode (BitVec.ofNat 8 (phaseCode p)).toNat = some p := by
  cases p with
  | none => rfl
  | some p => cases p <;> rfl

/-- The armed pairs are read back, with the bytes that follow them left (R165). -/
theorem readPairs_pairBytes (ps : List (Nat × Check)) (tail : List Byte) (h : ∀ p ∈ ps, p.1 < 65536) :
    readPairs ps.length (ps.flatMap pairBytes ++ tail) = some (ps, tail) := by
  induction ps with
  | nil => rfl
  | cons p ps ih =>
    have hrest := ih fun q hq => h q (by simp [hq])
    have hp := read2_ofNat (h p (by simp))
    have hstep : readPairs (p :: ps).length ((p :: ps).flatMap pairBytes ++ tail) =
        match readPairs ps.length (ps.flatMap pairBytes ++ tail) with
        | none => none
        | some (qs, r) =>
          some ((read2 ((BitVec.ofNat 16 p.1).extractLsb' 8 8) ((BitVec.ofNat 16 p.1).extractLsb' 0 8),
            BitVec.ofNat 16 (read2 (p.2.extractLsb' 8 8) (p.2.extractLsb' 0 8))) :: qs, r) := by
      rw [List.flatMap_cons, List.append_assoc]
      rfl
    rw [hstep, hrest, hp, read2_check]

theorem tailAgrees_faults {e : List Byte} {faults : List (Condition × Bool × Bool)} (he : e.length = 7)
    (hf : faults.length ≤ 14) :
    tailAgrees (e ++ [BitVec.ofNat 8 faults.length] ++ faults.map faultByte) = true := by
  have hdrop : (e ++ [BitVec.ofNat 8 faults.length] ++ faults.map faultByte).drop 7 =
      BitVec.ofNat 8 faults.length :: faults.map faultByte := by
    rw [List.append_assoc, ← he, List.drop_left' rfl]
    rfl
  have hn : (BitVec.ofNat 8 faults.length).toNat = faults.length := by rw [BitVec.toNat_ofNat]; omega
  rw [tailAgrees, hdrop]
  simp [hn]

theorem eventBytes_length (e : Option CueEvent) : (eventBytes e).length = 7 := by
  rcases e with _ | e
  · rfl
  · cases e <;> rfl

theorem phaseAgrees_status {cue : Nat} {phase : Option CuePhase} (h : phase = none ↔ cue = 0) :
    phaseAgrees cue phase = true := by
  cases phase with
  | none => simp [phaseAgrees, h.1 rfl]
  | some p => simpa [phaseAgrees] using fun hc => nomatch h.2 hc

/-- The layout of a STATUS payload as the reader takes it apart (R165). -/
theorem parseStatus_statusPayload (st : Status) : parseStatus (statusPayload st) =
    match sendingState (BitVec.ofNat 8 st.axis.code).toNat, phaseOfCode (BitVec.ofNat 8 (phaseCode st.phase)).toNat,
      readPairs (BitVec.ofNat 8 st.armed.length).toNat (st.armed.flatMap pairBytes ++
        (eventBytes st.lastEvent ++ [BitVec.ofNat 8 st.faults.length] ++ st.faults.map faultByte)) with
    | some axis, some phase, some (pairs, tail) =>
      let cue := read2 ((BitVec.ofNat 16 st.cue).extractLsb' 8 8) ((BitVec.ofNat 16 st.cue).extractLsb' 0 8)
      let progress :=
        read2 ((BitVec.ofNat 16 st.progress).extractLsb' 8 8) ((BitVec.ofNat 16 st.progress).extractLsb' 0 8)
      if decide ((BitVec.ofNat 8 st.armed.length).toNat ≤ 4) && decide (progress ≤ 4096) && phaseAgrees cue phase &&
          tailAgrees tail then
        some { axis := axis, cue := cue, phase := phase, progress := progress
               setPoint := read4 ((word32 st.setPoint).extractLsb' 24 8) ((word32 st.setPoint).extractLsb' 16 8)
                 ((word32 st.setPoint).extractLsb' 8 8) ((word32 st.setPoint).extractLsb' 0 8)
               measured := read4 ((word32 st.measured).extractLsb' 24 8) ((word32 st.measured).extractLsb' 16 8)
                 ((word32 st.measured).extractLsb' 8 8) ((word32 st.measured).extractLsb' 0 8)
               stopPoint := read4 ((word32 st.stopPoint).extractLsb' 24 8) ((word32 st.stopPoint).extractLsb' 16 8)
                 ((word32 st.stopPoint).extractLsb' 8 8) ((word32 st.stopPoint).extractLsb' 0 8)
               armed := pairs }
      else none
    | _, _, _ => none := by
  have happ : statusPayload st = statusHead st ++ (st.armed.flatMap pairBytes ++
      (eventBytes st.lastEvent ++ [BitVec.ofNat 8 st.faults.length] ++ st.faults.map faultByte)) := by
    simp [statusPayload]
  rw [happ]
  rfl

/-- Settles O60: each field's bytes are read back as the field, and the two lengths and the phase agree. -/
theorem statusReadBackByPeer : Obligations.StatusReadBackByPeer := by
  intro st haxis hcue hphase hprogress hset hmeas hstop harmed hpairs hfaults
  have hn : (BitVec.ofNat 8 st.armed.length).toNat = st.armed.length := by rw [BitVec.toNat_ofNat]; omega
  have htail := tailAgrees_faults (eventBytes_length st.lastEvent) hfaults
  rw [parseStatus_statusPayload, sendingState_code haxis, phaseOfCode_phaseCode, hn,
    readPairs_pairBytes _ _ hpairs, read4_word32 hset, read4_word32 hmeas, read4_word32 hstop,
    read2_ofNat (by omega : st.cue < 65536), read2_ofNat (by omega : st.progress < 65536)]
  simp only [htail, phaseAgrees_status hphase, harmed, hprogress, decide_true, Bool.and_true, if_true]

end Sys2Proof.Machine


/-! PROOFS. The trips: what a condition of category DROP, the loop and the two timeouts leave (R17, R18, R21, R79). -/

namespace Sys2Proof.Machine

section trips
variable {s u i t : State} {c : Condition}

/-! ## A drop demand -/

theorem classOf_drop (hc : c.isDrop = true) : classOf u c = .latch := by
  cases c with
  | overspeed | encoder | ultimate | driveFault | driveReady => rfl
  | following | overload | slack | loadSensor | brakeRelease | brakeSet | homeMiss | estop | setupBad => nomatch hc

theorem respond_drop (hc : c.isDrop = true) : respond c u = dropDemand c (latch c u) := by
  simp [respond, classOf_drop hc, latchDemand, hc]

theorem dropDemand_trips (h1 : u.seq.axis ≠ .unaddressed) (h2 : u.seq.axis ≠ .tripped) :
    dropDemand c u = enterTripped (.fault c) u := by
  simp only [dropDemand]

theorem dropDemand_tripped (h : u.seq.axis = .tripped) : dropDemand c u = followDrive u := by simp [dropDemand, h]

theorem evaluate_new (h : isPresent u c = false) : evaluate c true u = respond c (markPresent c u) := by
  simp [evaluate, h]

/-- With a DROP condition latched the drive does not hold the load (R2). -/
theorem trippedHolding_drop (hc : c.isDrop = true) : trippedHolding (latch c u) = false := by
  have : (insertCondition c u.sup.latched).any Condition.isDrop = true :=
    List.any_eq_true.2 ⟨c, (mem_insertCondition _ _ _).2 (.inl rfl), hc⟩
  simp [trippedHolding, this]

theorem trippedHolding_of_unlatched (h : isLatched u .brakeSet = false) : trippedHolding u = false := by
  simp [trippedHolding, h]

/-! ## The drive off -/

@[simp] theorem finish_driveOff (t : State) : DriveOff (finish t) ↔ DriveOff t := by simp [DriveOff]

theorem followDrive_off (h : driveEn u = false) :
    followDrive u = (forceDuty u).onSup fun p => { p with readySeen := false } := by
  have hz : dutyAtZero u = true := by simp [dutyAtZero, h]
  simp [followDrive, h, hz]

theorem followDrive_driveOff (h : driveEn u = false) : DriveOff (followDrive u) := by
  rw [followDrive_off h]
  exact ⟨h, rfl, rfl, rfl⟩

theorem driveEn_tripped (ha : u.seq.axis = .tripped) (h : trippedHolding u = false ∨ u.inp.loopOpen = true) :
    driveEn u = false := by
  rcases h with h | h <;> simp [driveEn, ha, h]

/-! ## TRIPPED entered -/

theorem TripFrame.trans (h1 : TripFrame s u) (h2 : TripFrame u t) : TripFrame s t := by
  obtain ⟨a1, a2, a3, a4, a5⟩ := h1
  obtain ⟨b1, b2, b3, b4, b5⟩ := h2
  exact ⟨b1.trans a1, b2.trans a2, b3.trans a3, b4.trans a4, b5.trans a5⟩

/-- Conditions found and latched on an input that has changed. -/
structure Found (c : Condition) (i u : State) : Prop where
  latched : u.sup.latched = insertCondition c i.sup.latched
  frame : TripFrame i u
  ctl : u.ctl = i.ctl
  gen : u.gen = i.gen
  seq : u.seq = i.seq
  line : u.line = i.line
  peers : u.peers = i.peers
  inp : u.inp = i.inp

theorem found_latch (c : Condition) (i : State) : Found c i (latch c i) :=
  ⟨rfl, ⟨rfl, rfl, rfl, rfl, rfl⟩, rfl, rfl, rfl, rfl, rfl, rfl⟩

theorem found_present (c : Condition) (i : State) : Found c i (latch c (markPresent c i)) :=
  ⟨rfl, ⟨rfl, rfl, rfl, rfl, rfl⟩, rfl, rfl, rfl, rfl, rfl, rfl⟩

theorem Found.entered (h : Found c i u) (o : CueOutcome) : TripEntered c i (finish (enterTripped o u)) := by
  refine ⟨by simp, by simp [seqIn], ?_, by simp [brakeRel, brakeRelIn], by simp [h.latched], by simp, by simp, by simp, ?_⟩
  · simp [restFollow_stopped, seqIn]
  · simp [setAxis, captureIn]

theorem Found.framed (h : Found c i u) (o : CueOutcome) : TripFrame i (finish (enterTripped o u)) :=
  (finish_tripFrame _ _).2 (h.frame.trans (enterTripped_frame o u))

theorem Found.ended (h : Found c i u) : EndedByTrip c i (finish (enterTripped (.fault c) u)) := by
  have := enterTripped_ended c u
  rw [finish_endedByTrip]
  simpa only [EndedByTrip, h.ctl, remainingMm, h.gen] using this

/-- A condition of category DROP found on a watched axis that is not TRIPPED: TRIPPED, drive off (R18). -/
theorem Found.trips (h : Found c i u) (hoff : trippedHolding u = false ∨ u.inp.loopOpen = true) :
    let t := finish (enterTripped (.fault c) u)
    TripEntered c i t ∧ DriveOff t ∧ TripFrame i t ∧ EndedByTrip c i t :=
  ⟨h.entered _, (finish_driveOff _).2 (enterTripped_driveOff _ u hoff), h.framed _, h.ended⟩

/-- The same on an axis already TRIPPED: latched, drive off, nothing else (R18, R21). -/
theorem Found.dropped (h : Found c i u) (ha : i.seq.axis = .tripped)
    (hoff : trippedHolding u = false ∨ u.inp.loopOpen = true) :
    let t := followDrive u
    t.seq = i.seq ∧ DriveOff t ∧ t.sup.latched = insertCondition c i.sup.latched ∧
      t.sup.present = u.sup.present ∧ t.ctl = i.ctl ∧ t.line = i.line ∧ t.peers = i.peers ∧ TripFrame i t := by
  have hd : driveEn u = false := driveEn_tripped (by rw [h.seq]; exact ha) hoff
  refine ⟨by rw [followDrive_seq, h.seq], followDrive_driveOff hd, ?_, followDrive_present u,
    by rw [followDrive_ctl, h.ctl], by rw [followDrive_line, h.line], by rw [followDrive_peers, h.peers], h.frame.trans ?_⟩
  · rw [followDrive_latched, h.latched]
  · rw [followDrive_off hd]
    exact ⟨rfl, rfl, rfl, rfl, rfl⟩

/-- A command that leaves sequencer, cue control and port as they are ends where it stands. -/
theorem finish_same (hs : Settled i) (hseq : t.seq = i.seq) (hctl : t.ctl = i.ctl) (hline : t.line = i.line)
    (hbase : base t = base i) : finish t = t :=
  finish_of hs (by rw [hline]) hseq (by rw [hctl]) (by rw [hctl]) (by rw [store_of_base hbase])

theorem Found.further (h : Found c i u) (hs : Settled i) (ha : i.seq.axis = .tripped)
    (hoff : trippedHolding u = false ∨ u.inp.loopOpen = true) :
    let t := finish (followDrive u)
    t.seq = i.seq ∧ DriveOff t ∧ t.sup.latched = insertCondition c i.sup.latched ∧
      t.sup.present = u.sup.present ∧ t.ctl = i.ctl ∧ t.line = i.line ∧ t.peers = i.peers ∧ TripFrame i t := by
  obtain ⟨hseq, ho, hlat, hpres, hctl, hline, hpeers, hfr⟩ := h.dropped ha hoff
  rw [finish_same hs hseq hctl hline hfr.1]
  exact ⟨hseq, ho, hlat, hpres, hctl, hline, hpeers, hfr⟩

/-! ## The events -/

/-- The opening of the loop off TRIPPED (R17). -/
theorem exec_estopLoopOpen (hw : watched s = true) :
    exec .estopLoopOpen s = .next (finish (openLoop (s.onInp fun p => { p with loopOpen := true }))) := if_pos hw

theorem openLoop_trips (h : u.seq.axis ≠ .tripped) :
    openLoop u = enterTripped .estop (latch .estop (markPresent .estop u)) := if_neg h

theorem openLoop_tripped (h : u.seq.axis = .tripped) :
    openLoop u = followDrive (latch .estop (markPresent .estop u)) := if_pos h

/-- A level of category DROP found on a watched axis (R18, R141). -/
theorem evaluateLevel_true (hc : c.isDrop = true) (hw : watched u = true) (hp : isPresent u c = false) :
    evaluateLevel c true u = dropDemand c (latch c (markPresent c u)) := by
  rw [evaluateLevel, if_pos hw, evaluate_new hp, respond_drop hc]

theorem loseReady_lost (hd : driveEn u = true) (hr : u.sup.readySeen = true) (hp : isPresent u .driveReady = false) :
    loseReady u = markAbsent .driveReady (dropDemand .driveReady (latch .driveReady (markPresent .driveReady u))) := by
  rw [loseReady, if_pos (by simp [hd, hr]), evaluate_new hp, respond_drop rfl]

theorem loseReady_unseen (h : driveEn u = false ∨ u.sup.readySeen = false) : loseReady u = u := by
  refine if_neg ?_
  rcases h with h | h <;> simp [h]

theorem trips_off (hc : c.isDrop = true) : trippedHolding (latch c u) = false ∨ (latch c u).inp.loopOpen = true :=
  .inl (trippedHolding_drop hc)

theorem level_trips (hc : c.isDrop = true) (hh : s.held = none) (h1 : s.seq.axis ≠ .unaddressed)
    (h2 : s.seq.axis ≠ .tripped) (hp : isPresent s c = false) (f : Inputs → Inputs) :
    let t := finish (evaluateLevel c true (s.onInp f))
    TripEntered c (s.onInp f) t ∧ DriveOff t ∧ TripFrame (s.onInp f) t ∧ EndedByTrip c (s.onInp f) t := by
  have he : evaluateLevel c true (s.onInp f) = enterTripped (.fault c) (latch c (markPresent c (s.onInp f))) :=
    (evaluateLevel_true (u := s.onInp f) hc (watched_of hh h1) hp).trans (dropDemand_trips (u := latch c (markPresent c (s.onInp f))) h1 h2)
  rw [he]
  exact (found_present c _).trips (trips_off hc)

theorem level_further (hs : Settled s) (hc : c.isDrop = true) (hh : s.held = none) (ha : s.seq.axis = .tripped)
    (hp : isPresent s c = false) (f : Inputs → Inputs) :
    let t := finish (evaluateLevel c true (s.onInp f))
    t.seq = s.seq ∧ DriveOff t ∧ t.sup.latched = insertCondition c s.sup.latched ∧ t.ctl = s.ctl ∧ t.line = s.line ∧
      t.peers = s.peers ∧ TripFrame (s.onInp f) t := by
  have hw : watched (s.onInp f) = true := watched_of hh (by simp [ha])
  have he : evaluateLevel c true (s.onInp f) = followDrive (latch c (markPresent c (s.onInp f))) :=
    (evaluateLevel_true hc hw hp).trans (dropDemand_tripped ha)
  rw [he]
  obtain ⟨hseq, hoff, hlat, -, hctl, hline, hpeers, hfr⟩ := (found_present c (s.onInp f)).further
    (settled_of hs rfl rfl rfl rfl rfl) ha (trips_off hc)
  exact ⟨hseq, hoff, hlat, hctl, hline, hpeers, hfr⟩

/-- What a trip leaves does not read which conditions are present. -/
theorem markAbsent_tripped {d : Condition} {v : State}
    (h : TripEntered c i (finish v) ∧ DriveOff (finish v) ∧ TripFrame i (finish v) ∧ EndedByTrip c i (finish v)) :
    let t := finish (markAbsent d v)
    TripEntered c i t ∧ DriveOff t ∧ TripFrame i t ∧ EndedByTrip c i t := by
  have hseq : (finish (markAbsent d v)).seq = (finish v).seq := by rw [finish_seq, finish_seq]; rfl
  have hbrake : brakeRel (finish (markAbsent d v)) = brakeRel (finish v) := by rw [brakeRel, brakeRel, hseq]
  obtain ⟨h1, h2, h3, h4⟩ := h
  rw [finish_driveOff] at h2
  rw [finish_tripFrame] at h3
  rw [finish_endedByTrip] at h4
  refine ⟨?_, (finish_driveOff _).2 h2, (finish_tripFrame _ _).2 h3, (finish_endedByTrip _ _ _).2 h4⟩
  simp only [TripEntered, finish_sup, finish_ctl, finish_meas, hseq, hbrake] at h1 ⊢
  exact h1

/-- DRIVE_READY lost: the DROP that follows makes the condition absent, and leaves the rest (R142). -/
theorem ready_trips (h1 : s.seq.axis ≠ .unaddressed) (h2 : s.seq.axis ≠ .tripped) (hd : driveEn s = true)
    (hr : s.sup.readySeen = true) (hp : isPresent s .driveReady = false) (f : Inputs → Inputs)
    (hf : (f s.inp).loopOpen = s.inp.loopOpen) :
    let t := finish (loseReady (s.onInp f))
    TripEntered .driveReady (s.onInp f) t ∧ DriveOff t ∧ TripFrame (s.onInp f) t ∧
      EndedByTrip .driveReady (s.onInp f) t := by
  have hd' : driveEn (s.onInp f) = true := by rw [← hd]; exact driveEn_congr hf rfl (.inl rfl)
  have he : loseReady (s.onInp f) = markAbsent .driveReady
      (enterTripped (.fault .driveReady) (latch .driveReady (markPresent .driveReady (s.onInp f)))) :=
    (loseReady_lost hd' hr hp).trans (congrArg _ (dropDemand_trips h1 h2))
  rw [he]
  exact markAbsent_tripped ((found_present .driveReady _).trips (trips_off rfl))

end trips

end Sys2Proof.Machine


/-! PROOFS. The parts of a profile period, said once: what precedes the generator, the generator in each mode, the speed
tests of a calm period (chapters 2, 6, 7 and 8). -/

namespace Sys2Proof.Machine

section period
variable {s u t : State} {x : CueContext} {m : MoveInputs}

/-! ## Before the generator -/

theorem applyReference_unheld (h : s.meas.capture = .disarmed ∨ s.meas.capture = .armed) : applyReference s = s := by
  rcases h with h | h <;> simp [applyReference, h]

/-- The state after the count is latched and the guard computed (R110, R123, R130). -/
def sensed (s : State) : State := guardCompute (s.onMeas (latchCount s.store.live))

theorem beforeGenerator_unreferencing (h : Unreferencing s) :
    beforeGenerator s = couple (homingAbort (homingSearch s) (sensed s)) := by
  rw [beforeGenerator, applyReference_unheld h.2]
  rfl

theorem homingAbort_idle {b : Bool} (h : b = false) : homingAbort b u = u := if_neg (by simp [h])

theorem homingSearch_off (h : s.seq.axis ≠ .homing) : homingSearch s = false := by simp [homingSearch, h]

theorem homingSearch_none (h : s.gen.homing = none) : homingSearch s = false := by simp [homingSearch, h]

/-- What the period does before the generator runs, on an axis that does not search (R22). -/
theorem beforeGenerator_eq (h : Unreferencing s) (hs : homingSearch s = false) :
    beforeGenerator s = couple (sensed s) := by
  rw [beforeGenerator_unreferencing h, homingAbort_idle hs]

theorem couple_off (h : targetPeriod u = false) : couple u = u := if_neg (by simp [h])

theorem couple_on (h : targetPeriod u = true) : couple u = onCtx (coupleContext u.gen.progress u.peers) u := if_pos h

/-- What the start of a period leaves alone, and what it makes of the cue context: its coupler flags only. -/
structure Prepared (s b : State) : Prop where
  seq : b.seq = s.seq
  sup : b.sup = s.sup
  meas : b.meas = latchCount s.store.live s.meas
  base : base b = base s
  line : b.line = s.line
  peers : b.peers = s.peers
  point : b.gen.s = s.gen.s
  armed : b.ctl.armed = s.ctl.armed
  enabling : enabling b.ctl = enabling s.ctl
  noHoming : s.ctl.homing = none → b.ctl.homing = none
  ctx : ∃ f : CueContext → CueContext, b.ctl.ctx = s.ctl.ctx.map f ∧
    ∀ x, (f x).record = x.record ∧ (f x).move = x.move ∧ (f x).endReason = x.endReason ∧ (f x).phase = x.phase

theorem prepared_sensed (s : State) : Prepared s (sensed s) :=
  ⟨rfl, rfl, rfl, rfl, rfl, rfl, rfl, rfl, rfl, id, id, by simp [sensed, guardCompute], fun _ => ⟨rfl, rfl, rfl, rfl⟩⟩

theorem Prepared.homingAbort {b : State} (h : Prepared s b) (d : Bool) : Prepared s (homingAbort d b) := by
  unfold Machine.homingAbort
  split
  · exact ⟨h.seq, h.sup, h.meas, h.base, h.line, h.peers, h.point, h.armed, h.enabling,
      fun hn => by simp [onRun, onHoming, h.noHoming hn], h.ctx⟩
  · exact h

theorem Prepared.couple {b : State} (h : Prepared s b) : Prepared s (couple b) := by
  unfold Machine.couple
  split
  · obtain ⟨f, hf, hk⟩ := h.ctx
    refine ⟨h.seq, h.sup, h.meas, h.base, h.line, h.peers, h.point, h.armed, h.enabling, h.noHoming,
      fun x => coupleContext b.gen.progress b.peers (f x), ?_, fun x => hk x⟩
    simp [onCtx, hf, Function.comp_def]
  · exact h

theorem prepared_beforeGenerator (h : Unreferencing s) : Prepared s (beforeGenerator s) := by
  rw [beforeGenerator_unreferencing h]
  exact ((prepared_sensed s).homingAbort _).couple

/-! ## The generator's part -/

theorem foldl_queueMark_due (l : List Nat) (n : Nat) (u : State) :
    (l.foldl (queueMark n) u).line.statusDue = u.line.statusDue := by
  induction l generalizing u with
  | nil => rfl
  | cons i l ih =>
    rw [List.foldl_cons, ih, queueMark, onLine_line]
    split <;> rfl

theorem updateProgress_shape (u : State) : ∃ n, updateProgress u = u.onGen fun g => { g with progress := n } := by
  have hsame : u = u.onGen fun g => { g with progress := u.gen.progress } := rfl
  unfold updateProgress
  split
  · exact ⟨_, hsame⟩
  · split
    · exact ⟨_, hsame⟩
    · split
      · exact ⟨_, hsame⟩
      · exact ⟨_, rfl⟩

theorem fireMarks_shape (old : Position) (u : State) : ∃ g l, fireMarks old u = { u with gen := g, line := l } ∧
    l.statusDue = u.line.statusDue := by
  unfold fireMarks
  split
  · exact ⟨u.gen, u.line, rfl, rfl⟩
  · split
    · exact ⟨u.gen, u.line, rfl, rfl⟩
    · dsimp only
      generalize firedBy _ _ _ _ _ = new
      rw [foldl_queueMark]
      exact ⟨_, _, rfl, foldl_queueMark_due _ _ _⟩

/-- The generator's part of a period changes the generator, the marks and the pending duty (R22). -/
theorem runGenerator_shape (u : State) : ∃ g l d, (runGenerator u).1 =
    { u with gen := g, line := l, meas := { u.meas with pendingDuty := d } } ∧ l.statusDue = u.line.statusDue := by
  obtain ⟨n, hn⟩ := updateProgress_shape (generate u).1
  obtain ⟨g, l, hf, hl⟩ := fireMarks_shape u.gen.s (updateProgress (generate u).1)
  have hgen : (generate u).1 = u.onGen fun _ => (generate u).1.gen := (generate_gen u).1
  rw [hn, hgen] at hl
  have hf' : fireMarks u.gen.s (updateProgress (generate u).1) = { u with gen := g, line := l } := by
    rw [hf, hn, hgen]; rfl
  have hpub (d : Nat) (w : State) : ∃ g d', writeDuty d (publish (modeOf u) w) =
      { w with gen := g, meas := { w.meas with pendingDuty := d' } } := ⟨_, _, rfl⟩
  obtain ⟨g', d', he⟩ := hpub
    (dutyIn (publish (modeOf u) (fireMarks u.gen.s (updateProgress (generate u).1))) (modeOf u))
    (fireMarks u.gen.s (updateProgress (generate u).1))
  exact ⟨g', l, d', he.trans (by rw [hf']), hl⟩

/-! ## The speed tests -/

/-- The presence of the three conditions of motion as a calm period leaves it. -/
def judged (s : State) : State := markAbsent .following (markAbsent .encoder (markAbsent .overspeed s))

/-- A period that finds none of OVERSPEED, ENCODER and FOLLOWING marks them absent (R138, R139, R141). -/
theorem judgeMotion_calm (ho : overspeedNow s = false) (he : encoderNow s = false)
    (hf : brakeRel s = true → (errorNow s).natAbs ≤ s.store.live.followLimit * 1000) : judgeMotion s = judged s := by
  have hq : brakeRel (markAbsent .encoder (markAbsent .overspeed s)) = brakeRel s := rfl
  have hj : judgeFollowing (markAbsent .encoder (markAbsent .overspeed s)) = judged s := by
    unfold judgeFollowing
    split
    · have hd : decide ((markAbsent .encoder (markAbsent .overspeed s)).store.live.followLimit * 1000 <
          (errorNow (markAbsent .encoder (markAbsent .overspeed s))).natAbs) = false :=
        decide_eq_false (Nat.not_lt.2 (hf (by rwa [hq] at *)))
      rw [hd]; rfl
    · rfl
  rw [judgeMotion_eq, ho, he]
  exact hj

theorem markAbsent_shape (c : Condition) (s : State) : ∃ r, markAbsent c s = { s with sup := { s.sup with
    present := removeCondition c s.sup.present
    recovery := r } } := ⟨_, rfl⟩

theorem judged_shape (s : State) : ∃ r, judged s = { s with sup := { s.sup with
    present := removeCondition .following (removeCondition .encoder (removeCondition .overspeed s.sup.present))
    recovery := r } } := by
  obtain ⟨r1, h1⟩ := markAbsent_shape .overspeed s
  obtain ⟨r2, h2⟩ := markAbsent_shape .encoder (markAbsent .overspeed s)
  obtain ⟨r3, h3⟩ := markAbsent_shape .following (markAbsent .encoder (markAbsent .overspeed s))
  exact ⟨r3, h3.trans (by rw [h2, h1])⟩

end period

end Sys2Proof.Machine


/-! PROOFS. The trips of a profile period: OVERSPEED and ENCODER (R138, R141), and every trip statement together. -/

namespace Sys2Proof.Machine

section tripping
variable {s u v w t : State} {c : Condition} {l : List Condition} {r : Bool}

/-! ## The period up to the speed tests -/

theorem exec_period (hw : watched s = true) : exec .profilePeriod s = .next (finish
    (actOn (runGenerator (beforeGenerator s)).2 (judgeMotion (runGenerator (beforeGenerator s)).1))) := by
  have hh : s.held.isSome = false := by
    simp only [watched, Bool.and_eq_true, Option.isNone_iff_eq_none] at hw
    simp [hw.1]
  simp [exec, execProfilePeriod, hh, hw]

/-- The state that the speed tests of a period judge. -/
structure Judged (s w : State) : Prop where
  seq : w.seq = s.seq
  sup : w.sup = s.sup
  base : base w = base s
  peers : w.peers = s.peers
  statusDue : w.line.statusDue = s.line.statusDue
  armed : w.ctl.armed = s.ctl.armed
  enabling : enabling w.ctl = enabling s.ctl
  noHoming : s.ctl.homing = none → w.ctl.homing = none
  ctx : ∃ f : CueContext → CueContext, w.ctl.ctx = s.ctl.ctx.map f ∧
    ∀ x, (f x).record = x.record ∧ (f x).move = x.move ∧ (f x).endReason = x.endReason ∧ (f x).phase = x.phase
  meas : ∃ d, w.meas = { latchCount s.store.live s.meas with pendingDuty := d }

theorem judged_of (h : Unreferencing s) : Judged s (runGenerator (beforeGenerator s)).1 := by
  obtain ⟨g, l, d, hw, hd⟩ := runGenerator_shape (beforeGenerator s)
  have hp := prepared_beforeGenerator h
  rw [hw]
  refine ⟨hp.seq, hp.sup, hp.base, hp.peers, hd.trans (congrArg _ hp.line), hp.armed, hp.enabling, hp.noHoming, hp.ctx,
    d, ?_⟩
  dsimp only
  rw [hp.meas]

theorem Judged.cueMove (h : Judged s w) : cueMove w = cueMove s := by
  obtain ⟨f, hf, hk⟩ := h.ctx
  simp only [Machine.cueMove, hf]
  cases s.ctl.ctx with
  | none => rfl
  | some x => exact (hk x).2.1

theorem Judged.speedLimit (h : Judged s w) : speedLimit w = speedLimit s := by
  rw [Machine.speedLimit, Machine.speedLimit, h.cueMove, h.seq, store_of_base h.base]

theorem Judged.overspeed (h : Judged s w) :
    overspeedNow w = decide (115 * Machine.speedLimit s < 100 * (periodDisplacement s).natAbs) := by
  obtain ⟨d, hd⟩ := h.meas
  rw [overspeedNow, h.speedLimit, hd]
  rfl

theorem Judged.encoder (h : Judged s w) :
    encoderNow w = decide (s.store.live.encJump < (periodChange s).natAbs) := by
  obtain ⟨d, hd⟩ := h.meas
  rw [encoderNow, store_of_base h.base, hd]
  rfl

theorem Judged.referenced (h : Judged s w) : w.meas.referenced = s.meas.referenced := by
  obtain ⟨d, hd⟩ := h.meas
  rw [hd]; rfl

theorem actOn_tripped (rep : GenReport) (h : u.seq.axis = .tripped) : actOn rep u = u := by
  cases rep with
  | quiet => rfl
  | ran v a => simp [actOn, actOnRun, h]
  | slowed v => simp [actOn, actOnFast, stoppingOf, h]
  | homed v e => simp [actOn, actOnHoming, h]
  | resumes => simp [actOn, h]

/-! ## The trip of a period -/

/-- What a trip in a period leaves, before the command ends: `swept` of the statement, with the reference. -/
structure Swept (s : State) (c : Condition) (l : List Condition) (r : Bool) (v : State) : Prop where
  axis : v.seq.axis = .tripped
  startReq : v.seq.startReq = .none
  off : DriveOff v
  latched : v.sup.latched = l
  ctx : v.ctl.ctx = none
  armed : v.ctl.armed = []
  homing : v.ctl.homing = none
  capture : v.meas.capture = .disarmed
  referenced : v.meas.referenced = r
  enabling : enabling v.ctl = enabling s.ctl
  base : base v = base s
  ended : ∀ x ∈ s.ctl.ctx, x.endReason = none → s.ctl.armed = [] → s.ctl.homing = none →
    v.ctl.lastEvent = some (.ended x.record.cue.number (.fault c)
      (distance v.gen.s.toNat (x.record.cue.target * 1000000) / 1000000))

theorem Swept.brakeRel (h : Swept s c l r v) : brakeRel v = false := by simp [Machine.brakeRel, h.axis, brakeRelIn]

theorem Swept.markAbsent (h : Swept s c l r v) (d : Condition) : Swept s c l r (markAbsent d v) :=
  ⟨h.axis, h.startReq, h.off, h.latched, h.ctx, h.armed, h.homing, h.capture, h.referenced, h.enabling, h.base, h.ended⟩

/-- A further DROP condition on the axis just tripped is latched (R18, R21). -/
theorem Swept.further {d : Condition} (h : Swept s c l r v) (hd : d.isDrop = true) :
    Swept s c (insertCondition d l) r (followDrive (latch d v)) := by
  have hoff : driveEn (latch d v) = false := driveEn_tripped h.axis (trips_off hd)
  have hf := followDrive_driveOff hoff
  rw [followDrive_off hoff] at hf ⊢
  exact ⟨h.axis, h.startReq, hf, congrArg (insertCondition d) h.latched, h.ctx, h.armed, h.homing, h.capture, h.referenced, h.enabling,
    h.base, h.ended⟩

theorem Swept.finish (h : Swept s c l r v) : Swept s c l r (finish v) := by
  refine ⟨by simp [h.axis], by simp [h.startReq], (finish_driveOff _).2 h.off, by simp [h.latched], by simp [h.ctx],
    by simp [h.armed], by simp [h.homing], by simp [h.capture], by simp [h.referenced], by simp [h.enabling],
    by simp [h.base], ?_⟩
  simpa using h.ended

theorem capture_enterTripped (o : CueOutcome) (u : State) : (enterTripped o u).meas.capture = .disarmed := by
  simp [setAxis, captureIn]

theorem referenced_of_still (h : still t = still u) : t.meas.referenced = u.meas.referenced :=
  congrArg (fun p => p.1.2.2.2.2.2.2.1) h

/-- The trip itself (R18, R79). -/
theorem Judged.swept (h : Judged s w) (hc : c.isDrop = true) (hctl : u.ctl = w.ctl) (hb : Machine.base u = Machine.base w) :
    Swept s c (insertCondition c u.sup.latched) u.meas.referenced (enterTripped (.fault c) (latch c u)) := by
  have hstill := enterTripped_still (.fault c) (latch c u)
  have hpoint : (enterTripped (.fault c) (latch c u)).gen.s = u.gen.s :=
    congrArg (·.1) (enterTripped_path (.fault c) (latch c u))
  refine ⟨by simp [seqIn], by simp [seqIn], enterTripped_driveOff _ _ (trips_off hc), by simp, by simp, by simp, by simp,
    capture_enterTripped _ _, referenced_of_still hstill, ?_, ?_, ?_⟩
  · exact (congrArg (·.2.1) hstill).trans ((congrArg Machine.enabling hctl).trans h.enabling)
  · rw [enterTripped_base]; exact hb.trans h.base
  · intro x hx hr ha hh
    obtain ⟨f, hf, hk⟩ := h.ctx
    obtain ⟨hrec, -, hend, -⟩ := hk x
    have hfx : (latch c u).ctl.ctx = some (f x) := by rw [latch_ctl, hctl, hf, hx]; rfl
    rw [enterTripped_lastEvent _ _ (f x) hfx (by rw [latch_ctl, hctl, h.armed, ha])
      (by rw [latch_ctl, hctl, h.noHoming hh]), hpoint, remainingMm, hrec, tripOutcome, hend, hr]
    rfl

/-! ## The tests on an axis not TRIPPED -/

/-- The presence of OVERSPEED and ENCODER, and the reference, before any response. -/
def found (fast jumped : Bool) (w : State) : State :=
  loseReference jumped (setPresence .encoder jumped (setPresence .overspeed fast w))

theorem setPresence_base (c : Condition) (d : Bool) (u : State) :
    base (setPresence c d u) = base u ∧ (setPresence c d u).meas = u.meas := by
  cases d <;> exact ⟨rfl, rfl⟩

theorem loseReference_keeps (d : Bool) (u : State) : (loseReference d u).ctl = u.ctl ∧ (loseReference d u).seq = u.seq ∧
    (loseReference d u).sup.latched = u.sup.latched ∧ base (loseReference d u) = base u ∧
    (loseReference d u).meas.referenced = if d then false else u.meas.referenced := by
  cases d <;> exact ⟨rfl, rfl, rfl, rfl, rfl⟩

theorem found_keeps (fast jumped : Bool) (w : State) : (found fast jumped w).ctl = w.ctl ∧
    (found fast jumped w).seq = w.seq ∧ (found fast jumped w).sup.latched = w.sup.latched ∧
    base (found fast jumped w) = base w ∧
    (found fast jumped w).meas.referenced = if jumped then false else w.meas.referenced := by
  obtain ⟨c1, q1, l1⟩ := setPresence_rest .overspeed fast w
  obtain ⟨c2, q2, l2⟩ := setPresence_rest .encoder jumped (setPresence .overspeed fast w)
  obtain ⟨b1, m1⟩ := setPresence_base .overspeed fast w
  obtain ⟨b2, m2⟩ := setPresence_base .encoder jumped (setPresence .overspeed fast w)
  obtain ⟨c3, q3, l3, b3, m3⟩ := loseReference_keeps jumped (setPresence .encoder jumped (setPresence .overspeed fast w))
  refine ⟨c3.trans (c2.trans c1), q3.trans (q2.trans q1), l3.trans (l2.trans l1), b3.trans (b2.trans b1), ?_⟩
  rw [found, m3, m2, m1]

theorem judgeMotion_found (w : State) : judgeMotion w =
    respondIf .encoder (encoderNow w && !isPresent w .encoder)
      (judgeFollowing (respondIf .overspeed (overspeedNow w && !isPresent w .overspeed)
        (found (overspeedNow w) (encoderNow w) w))) := rfl

theorem respondIf_false (h : (b : Bool) = false) : respondIf c b u = u := by rw [h]; rfl

theorem respondIf_true {b : Bool} (h : b = true) (hc : c.isDrop = true) :
    respondIf c b u = dropDemand c (latch c u) := by
  rw [h]; exact respond_drop hc

theorem judgeFollowing_braked (h : brakeRel u = false) : judgeFollowing u = markAbsent .following u :=
  if_neg (by simp [h])

/-- OVERSPEED found in a period trips the axis; ENCODER found with it is latched there (R138, R141, log 37). -/
theorem Judged.overspeeds (h : Judged s w) (h1 : s.seq.axis ≠ .unaddressed) (h2 : s.seq.axis ≠ .tripped)
    (hf : overspeedNow w = true) (hn : isPresent s .overspeed = false) :
    (encoderNow w = false → Swept s .overspeed (insertCondition .overspeed s.sup.latched) s.meas.referenced
      (judgeMotion w)) ∧
    (encoderNow w = true → isPresent s .encoder = false →
      Swept s .overspeed (insertCondition .encoder (insertCondition .overspeed s.sup.latched)) false (judgeMotion w)) := by
  have hp (d : Condition) : isPresent w d = isPresent s d := by rw [isPresent, isPresent, h.sup]
  obtain ⟨kctl, kseq, klat, kbase, kref⟩ := found_keeps true (encoderNow w) w
  have hresp : respondIf .overspeed (overspeedNow w && !isPresent w .overspeed) (found (overspeedNow w) (encoderNow w) w) =
      enterTripped (.fault .overspeed) (latch .overspeed (found true (encoderNow w) w)) := by
    rw [respondIf_true (by simp [hf, hp, hn]) rfl, hf]
    exact dropDemand_trips (by rw [latch_seq, kseq, h.seq]; exact h1) (by rw [latch_seq, kseq, h.seq]; exact h2)
  have hswept := h.swept (c := .overspeed) rfl kctl kbase
  rw [klat, h.sup, kref] at hswept
  rw [judgeMotion_found, hresp, judgeFollowing_braked hswept.brakeRel]
  refine ⟨fun he => ?_, fun he hne => ?_⟩
  · rw [respondIf_false (by simp [he])]
    rw [if_neg (by simp [he]), h.referenced] at hswept
    exact hswept.markAbsent _
  · rw [respondIf_true (by simp [he, hp, hne]) rfl]
    rw [if_pos he] at hswept
    have hm := hswept.markAbsent .following
    generalize markAbsent .following _ = v at hm
    rw [dropDemand_tripped (u := latch .encoder v) hm.axis]
    exact hm.further rfl

/-- ENCODER found alone on a braked axis trips it (R124, R141). -/
theorem Judged.jumps (h : Judged s w) (h1 : s.seq.axis ≠ .unaddressed) (h2 : s.seq.axis ≠ .tripped)
    (hf : overspeedNow w = false) (he : encoderNow w = true) (hn : isPresent s .encoder = false)
    (hb : brakeRel s = false) :
    Swept s .encoder (insertCondition .encoder s.sup.latched) false (judgeMotion w) := by
  have hp : isPresent w .encoder = false := by rw [isPresent, h.sup]; exact hn
  obtain ⟨kctl, kseq, klat, kbase, kref⟩ := found_keeps false true w
  have hbr : brakeRel (found false true w) = false := by rw [brakeRel, kseq, h.seq]; exact hb
  have hjudge : judgeMotion w = dropDemand .encoder (latch .encoder (markAbsent .following (found false true w))) := by
    rw [judgeMotion_found, hf, he, hp]
    exact (respondIf_true rfl rfl).trans (by rw [Bool.false_and, respondIf_false rfl, judgeFollowing_braked hbr])
  rw [hjudge]
  generalize found false true w = v at kctl kseq klat kbase kref
  have hswept := h.swept (u := markAbsent .following v) (c := .encoder) rfl kctl kbase
  have hl : (markAbsent .following v).sup.latched = s.sup.latched := klat.trans (by rw [h.sup])
  have hr : (markAbsent .following v).meas.referenced = false := kref
  have hax : (markAbsent .following v).seq.axis = s.seq.axis := by rw [← h.seq, ← kseq]; rfl
  rw [hl, hr] at hswept
  generalize markAbsent .following _ = u at hswept hax
  rwa [dropDemand_trips (u := latch .encoder u) (fun ha => h1 (hax.symm.trans ha))
    (fun ha => h2 (hax.symm.trans ha))]

/-! ## ENCODER on any axis -/

/-- Law 11 kept by every elementary change (R79). -/
theorem Act.keeps_tripLawful {b : Bool} {f : Freedom} (h : Act b f s t) (hs : TripLawful s) : TripLawful t := by
  have hsame (hc : t.ctl.armed = s.ctl.armed) (hx : t.seq.axis = s.seq.axis) : TripLawful t := by
    rw [TripLawful, hc, hx]; exact hs
  cases h
  case axis a enters addressed leaves => exact fun h => absurd (by simpa using h) enters
  case rest _ => exact fun h => by simp at h
  case trip o => exact fun _ => by simp
  case drive => exact hsame (by simp) (by simp)
  case drop c => exact hsame (by simp) (by simp)
  case relatch => exact hsame (by simp [dropAbsent]) (by simp [dropAbsent])
  case seq g same => exact hsame rfl same
  case control g fewer _ _ =>
    intro ha
    rw [armedNumbers, hs ha, List.map_nil, List.sublist_nil] at fewer
    exact List.map_eq_nil_iff.1 fewer
  case begin r _ _ _ => exact fun ha => by simp [hs ha]
  case arm r w untripped _ _ _ => exact fun ha => absurd ha untripped
  all_goals exact hs

/-- ENCODER found in a period trips the axis, whatever else the period finds (R124, R141). -/
theorem Judged.jumped (h : Judged s w) (h1 : s.seq.axis ≠ .unaddressed) (h2 : s.seq.axis ≠ .tripped)
    (he : encoderNow w = true) (hn : isPresent s .encoder = false) :
    let v := judgeMotion w
    v.seq.axis = .tripped ∧ DriveOff v ∧ isLatched v .encoder = true ∧ v.meas.referenced = false ∧ v.ctl.ctx = none ∧
      v.ctl.armed = [] := by
  have hp : isPresent w .encoder = false := by rw [isPresent, h.sup]; exact hn
  obtain ⟨kctl, kseq, klat, kbase, kref⟩ := found_keeps (overspeedNow w) true w
  have hkeeps : Trippable (found (overspeedNow w) true w) ∧ TripLawful (found (overspeedNow w) true w) := by
    have hax : (found (overspeedNow w) true w).seq.axis = s.seq.axis := by rw [kseq, h.seq]
    exact ⟨⟨by rw [hax]; exact h1, fun ha => absurd (hax.symm.trans ha) h2⟩, fun ha => absurd (hax.symm.trans ha) h2⟩
  have hacts : Acts true .strict (found (overspeedNow w) true w)
      (judgeFollowing (respondIf .overspeed (overspeedNow w && !isPresent w .overspeed) (found (overspeedNow w) true w))) :=
    judgeFollowing_acts (respondIf_acts (.inl rfl) _ .refl)
  have hstill : still (judgeFollowing (respondIf .overspeed (overspeedNow w && !isPresent w .overspeed)
      (found (overspeedNow w) true w))) = still (found (overspeedNow w) true w) := by
    have hr (b : Bool) (u : State) : still (respondIf .overspeed b u) = still u := by cases b <;> simp [respondIf]
    have hj (u : State) : still (judgeFollowing u) = still u := by unfold judgeFollowing; split <;> simp
    rw [hj, hr]
  rw [judgeMotion_found, he, respondIf_true (by simp [hp]) rfl]
  generalize judgeFollowing _ = u at hacts hstill
  obtain ⟨⟨hu, hctx⟩, harmed⟩ := And.intro (hacts.keeps (fun _ _ act => act.keeps_trippable) hkeeps.1)
    (hacts.keeps (fun _ _ act => act.keeps_tripLawful) hkeeps.2)
  have href : u.meas.referenced = false := (referenced_of_still hstill).trans kref
  by_cases ha : u.seq.axis = .tripped
  · have hoff : driveEn (latch .encoder u) = false := driveEn_tripped ha (trips_off rfl)
    have hf := followDrive_driveOff hoff
    rw [dropDemand_tripped (u := latch .encoder u) ha]
    refine ⟨by simp [ha], hf, by simp [isLatched], ?_, by simp [hctx ha], by simp [harmed ha]⟩
    exact (referenced_of_still (followDrive_still _)).trans href
  · rw [dropDemand_trips (u := latch .encoder u) hu ha]
    refine ⟨by simp [seqIn], enterTripped_driveOff _ _ (trips_off rfl), by simp [isLatched], ?_, by simp, by simp⟩
    exact (referenced_of_still (enterTripped_still _ _)).trans href

/-! ## The tests on an axis already TRIPPED -/

/-- What the speed tests leave alone on a TRIPPED axis (R18, R21). -/
structure Further (s : State) (r : Bool) (v : State) : Prop where
  seq : v.seq = s.seq
  ctl : v.ctl = s.ctl
  base : base v = base s
  statusDue : v.line.statusDue = s.line.statusDue
  referenced : v.meas.referenced = r
  others : ∀ d, d ≠ .overspeed → d ≠ .encoder → isLatched v d = isLatched s d

theorem Further.markAbsent (h : Further s r v) (d : Condition) : Further s r (markAbsent d v) :=
  ⟨h.seq, h.ctl, h.base, h.statusDue, h.referenced, h.others⟩

theorem respondIf_tripped {b : Bool} (hc : c.isDrop = true) (ha : v.seq.axis = .tripped) :
    respondIf c b v = if b then followDrive (latch c v) else v := by
  cases b with
  | false => rfl
  | true => exact (respondIf_true rfl hc).trans (dropDemand_tripped (u := latch c v) ha)

theorem Further.respondIf (h : Further s r v) (ha : s.seq.axis = .tripped) (hc : c = .overspeed ∨ c = .encoder)
    (b : Bool) : Further s r (respondIf c b v) := by
  have hd : c.isDrop = true := by rcases hc with rfl | rfl <;> rfl
  rw [respondIf_tripped hd (by rw [h.seq, ha])]
  cases b with
  | false => exact h
  | true =>
    refine ⟨?_, ?_, ?_, ?_, ?_, fun d h1 h2 => ?_⟩
    · rw [if_pos rfl, followDrive_seq]; exact h.seq
    · rw [if_pos rfl, followDrive_ctl]; exact h.ctl
    · rw [if_pos rfl, followDrive_base]; exact h.base
    · rw [if_pos rfl, followDrive_line]; exact h.statusDue
    · rw [if_pos rfl, referenced_of_still (followDrive_still _)]; exact h.referenced
    · have hdc : d ≠ c := by rcases hc with rfl | rfl <;> assumption
      rw [if_pos rfl, isLatched, followDrive_latched, latch_latched, ← h.others d h1 h2, isLatched, Bool.eq_iff_iff]
      simp [hdc]

/-- A response found on a TRIPPED axis latches its condition and turns the drive off; none leaves both as they are. -/
theorem respondIf_tripped_off {b : Bool} (hc : c.isDrop = true) (ha : v.seq.axis = .tripped) :
    (b = true → DriveOff (respondIf c b v) ∧ isLatched (respondIf c b v) c = true) ∧
    (DriveOff v → DriveOff (respondIf c b v)) ∧
    (∀ d, isLatched v d = true → isLatched (respondIf c b v) d = true) := by
  have hoff : DriveOff (followDrive (latch c v)) := followDrive_driveOff (driveEn_tripped ha (trips_off hc))
  have hlat (d : Condition) (h : d = c ∨ isLatched v d = true) : isLatched (followDrive (latch c v)) d = true := by
    simpa [isLatched] using h
  rw [respondIf_tripped hc ha]
  cases b with
  | false => exact ⟨nofun, id, fun _ => id⟩
  | true => exact ⟨fun _ => ⟨hoff, hlat c (.inl rfl)⟩, fun _ => hoff, fun d h => hlat d (.inr h)⟩

theorem Judged.further (h : Judged s w) (hctl : w.ctl = s.ctl) (ha : s.seq.axis = .tripped) :
    let fast := overspeedNow w && !isPresent s .overspeed
    let jumps := encoderNow w && !isPresent s .encoder
    let v := judgeMotion w
    Further s (if encoderNow w then false else s.meas.referenced) v ∧ (fast = true ∨ jumps = true → DriveOff v) ∧
      (fast = true → isLatched v .overspeed = true) ∧ (jumps = true → isLatched v .encoder = true) := by
  have hp (d : Condition) : isPresent w d = isPresent s d := by rw [isPresent, isPresent, h.sup]
  obtain ⟨kctl, kseq, klat, kbase, kref⟩ := found_keeps (overspeedNow w) (encoderNow w) w
  have kdue : (found (overspeedNow w) (encoderNow w) w).line.statusDue = w.line.statusDue := by
    cases overspeedNow w <;> cases encoderNow w <;> rfl
  rw [judgeMotion_found, hp, hp]
  generalize (overspeedNow w && !isPresent s .overspeed) = fast
  generalize (encoderNow w && !isPresent s .encoder) = jumps
  generalize found (overspeedNow w) (encoderNow w) w = u at kctl kseq klat kbase kref kdue
  have h0 : Further s (if encoderNow w then false else s.meas.referenced) u :=
    ⟨kseq.trans h.seq, kctl.trans hctl, kbase.trans h.base, kdue.trans h.statusDue, by rw [kref, h.referenced],
      fun d _ _ => by rw [isLatched, isLatched, klat, h.sup]⟩
  have h1 := h0.respondIf ha (.inl rfl) fast
  obtain ⟨a1, -, -⟩ := respondIf_tripped_off (c := .overspeed) (b := fast) rfl (by rw [h0.seq, ha] : u.seq.axis = .tripped)
  generalize respondIf .overspeed fast u = u1 at h1 a1
  have hb : brakeRel u1 = false := by simp [brakeRel, h1.seq, ha, brakeRelIn]
  rw [judgeFollowing_braked hb]
  have h2 := h1.markAbsent .following
  have a2 : fast = true → DriveOff (markAbsent .following u1) ∧ isLatched (markAbsent .following u1) .overspeed = true := a1
  generalize markAbsent .following u1 = u2 at h2 a2
  have h3 := h2.respondIf ha (.inr rfl) jumps
  obtain ⟨b1, b2, b3⟩ := respondIf_tripped_off (c := .encoder) (b := jumps) rfl (by rw [h2.seq, ha] : u2.seq.axis = .tripped)
  refine ⟨h3, fun hor => ?_, fun hf => b3 _ (a2 hf).2, fun hj => (b1 hj).2⟩
  rcases hor with hf | hj
  · exact b2 (a2 hf).1
  · exact (b1 hj).1

/-! ## O49 -/

theorem beforeGenerator_ctl_tripped (h : Unreferencing s) (ha : s.seq.axis = .tripped) :
    (beforeGenerator s).ctl = s.ctl := by
  rw [beforeGenerator_eq h (homingSearch_off (by simp [ha])), couple_off]
  · rfl
  · have hs : (sensed s).seq.axis = .tripped := ha
    simp [targetPeriod, stoppingOf, hs]

/-- The loop opens (R17). -/
theorem loop_trips (h2 : s.seq.axis ≠ .tripped) (hl : s.inp.loopOpen = true) :
    let t := finish (openLoop s)
    TripEntered .estop s t ∧ DriveOff t ∧ TripFrame s t ∧
      ∀ x ∈ s.ctl.ctx, s.ctl.armed = [] → s.ctl.homing = none →
        t.ctl.lastEvent = some (.ended x.record.cue.number .estop (remainingMm s x)) := by
  have hf := found_present .estop s
  rw [openLoop_trips h2]
  refine ⟨hf.entered _, (finish_driveOff _).2 (enterTripped_driveOff _ _ (.inr (by rw [hf.inp]; exact hl))), hf.framed _,
    fun x hx ha hh => ?_⟩
  rw [finish_ctl]
  exact enterTripped_lastEvent .estop (latch .estop (markPresent .estop s)) x hx ha hh

theorem loop_further (hs : Settled s) (ha : s.seq.axis = .tripped) (hl : s.inp.loopOpen = true) :
    let t := finish (openLoop s)
    t.seq = s.seq ∧ DriveOff t ∧ t.sup.latched = insertCondition .estop s.sup.latched ∧
      t.sup.present = insertCondition .estop s.sup.present ∧ t.ctl = s.ctl ∧ t.line = s.line ∧ TripFrame s t := by
  rw [openLoop_tripped ha]
  obtain ⟨hseq, hoff, hlat, hpres, hctl, hline, -, hfr⟩ := (found_present .estop s).further hs ha (.inr hl)
  exact ⟨hseq, hoff, hlat, hpres, hctl, hline, hfr⟩

/-- DRIVE_READY lost on a TRIPPED axis whose drive holds the load (R142). -/
theorem ready_further (hs : Settled s) (ha : s.seq.axis = .tripped) (hd : driveEn s = true)
    (hr : s.sup.readySeen = true) (hp : isPresent s .driveReady = false) :
    let t := finish (loseReady s)
    t.seq = s.seq ∧ DriveOff t ∧ t.sup.latched = insertCondition .driveReady s.sup.latched ∧ t.ctl = s.ctl ∧
      t.line = s.line ∧ t.peers = s.peers ∧ TripFrame s t := by
  have he : loseReady s = markAbsent .driveReady (followDrive (latch .driveReady (markPresent .driveReady s))) :=
    (loseReady_lost hd hr hp).trans (congrArg _ (dropDemand_tripped ha))
  obtain ⟨hseq, hoff, hlat, -, hctl, hline, hpeers, hfr⟩ := (found_present .driveReady s).dropped ha (trips_off rfl)
  rw [he]
  generalize followDrive (latch .driveReady (markPresent .driveReady s)) = v at hseq hoff hlat hctl hline hpeers hfr
  rw [finish_same (t := markAbsent .driveReady v) hs hseq hctl hline hfr.1]
  exact ⟨hseq, hoff, hlat, hctl, hline, hpeers, hfr⟩

/-- A TRIPPED axis in a period that finds OVERSPEED or ENCODER (R18, R21, R124). -/
theorem period_further (hs : Settled s) (h : Unreferencing s) (ha : s.seq.axis = .tripped) :
    let fast := 115 * speedLimit s < 100 * (periodDisplacement s).natAbs ∧ isPresent s .overspeed = false
    let jumps := s.store.live.encJump < (periodChange s).natAbs ∧ isPresent s .encoder = false
    fast ∨ jumps → Answers (exec .profilePeriod s) fun t =>
      t.seq = s.seq ∧ DriveOff t ∧ t.ctl = s.ctl ∧ (fast → isLatched t .overspeed = true) ∧
        (jumps → isLatched t .encoder = true) ∧
        t.meas.referenced =
          (if s.store.live.encJump < (periodChange s).natAbs then false else s.meas.referenced) ∧
        (∀ c, c ≠ .overspeed → c ≠ .encoder → isLatched t c = isLatched s c) ∧ base t = base s := by
  intro fast jumps hor
  have hj := judged_of h
  have hctl : (runGenerator (beforeGenerator s)).1.ctl = s.ctl :=
    (runGenerator_ctl _).trans (beforeGenerator_ctl_tripped h ha)
  rw [exec_period (watched_of h.1 (by simp [ha])), answers_next]
  generalize (runGenerator (beforeGenerator s)).2 = rep
  generalize (runGenerator (beforeGenerator s)).1 = w at hj hctl
  obtain ⟨hv, hoff, hover, henc⟩ := hj.further hctl ha
  rw [hj.overspeed, hj.encoder] at *
  generalize judgeMotion w = v at hv hoff hover henc
  have hfin : finish v = v := finish_of hs hv.statusDue hv.seq (by rw [hv.ctl]) (by rw [hv.ctl])
    (by rw [store_of_base hv.base])
  rw [actOn_tripped rep (by rw [hv.seq, ha]), hfin]
  simp only [Bool.and_eq_true, decide_eq_true_eq, Bool.not_eq_true'] at hoff hover henc
  refine ⟨hv.seq, hoff hor, hv.ctl, hover, henc, ?_, hv.others, hv.base⟩
  rw [hv.referenced]
  simp only [decide_eq_true_eq]

/-- `Swept` at the end of the command, as the statement words it. -/
theorem Swept.answers (h : Swept s c l r v) : let t := Machine.finish v
    (t.seq.axis = .tripped ∧ t.seq.startReq = .none ∧ Machine.brakeRel t = false ∧ DriveOff t ∧ t.sup.latched = l ∧
      t.ctl.ctx = none ∧ t.ctl.armed = [] ∧ t.ctl.homing = none ∧ t.meas.capture = .disarmed ∧
      Machine.enabling t.ctl = Machine.enabling s.ctl ∧ Machine.base t = Machine.base s ∧
      ∀ x ∈ s.ctl.ctx, x.endReason = none → s.ctl.armed = [] → s.ctl.homing = none →
        t.ctl.lastEvent = some (.ended x.record.cue.number (.fault c)
          (distance t.gen.s.toNat (x.record.cue.target * 1000000) / 1000000))) ∧ t.meas.referenced = r := by
  have hf := h.finish
  exact ⟨⟨hf.axis, hf.startReq, hf.brakeRel, hf.off, hf.latched, hf.ctx, hf.armed, hf.homing, hf.capture, hf.enabling,
    hf.base, hf.ended⟩, hf.referenced⟩

/-- The period of an axis not TRIPPED, with its report: acted on after a trip, the report changes nothing (log 14). -/
theorem period_trips (h : Unreferencing s) (h1 : s.seq.axis ≠ .unaddressed) {p : State → Prop}
    (ht : ∀ w, Judged s w → (judgeMotion w).seq.axis = .tripped ∧ p (finish (judgeMotion w))) :
    Answers (exec .profilePeriod s) p := by
  obtain ⟨ha, hp⟩ := ht _ (judged_of h)
  rw [exec_period (watched_of h.1 h1), answers_next, actOn_tripped _ ha]
  exact hp

end tripping

/-- Settles O49: the events by `Found.trips` and `Found.further`, the periods by `Swept` and `Judged.further`. -/
theorem tripsStopAxis : Obligations.TripsStopAxis := by
  intro s hs hh
  refine ⟨fun ha => ⟨?_, ?_⟩, fun ha => ?_, fun ha => ⟨fun hp => ?_, fun sw hp => ?_, fun hd hr hp => ?_,
    fun hu _ => period_further hs hu ha⟩, fun h1 h2 => ⟨?_, fun hp => ?_, fun sw hp => ?_, fun hd hr hp => ?_,
    fun hw hwt => ?_, fun hr hb hl => ?_⟩, fun h => ?_, fun hu h1 h2 => ⟨fun hf hn => ?_, fun hf hj => ?_,
    fun hf hj hb => ?_, fun hj => ?_⟩⟩
  · exact if_neg (by simp [watched, ha])
  · have he : evaluateLevel .driveFault true (s.onInp fun p => { p with driveFault := true }) =
        s.onInp fun p => { p with driveFault := true } := if_neg (by simp [watched, ha])
    exact congrArg Host.Outcome.next ((congrArg finish he).trans (finish_of hs rfl rfl rfl rfl rfl))
  · rw [exec_estopLoopOpen (watched_of hh (by simp [ha])), answers_next]
    exact loop_further (s := s.onInp fun p => { p with loopOpen := true }) (settled_of hs rfl rfl rfl rfl rfl) ha rfl
  · exact (answers_next _ _).2 (level_further hs rfl hh ha hp _)
  · exact (answers_next _ _).2 (level_further hs rfl hh ha hp _)
  · have hd' : driveEn (s.onInp fun p => { p with driveReady := false }) = true := by
      rw [← hd]; exact driveEn_congr rfl rfl (.inl rfl)
    exact (answers_next _ _).2 (ready_further (settled_of hs rfl rfl rfl rfl rfl) ha hd' hr hp)
  · rw [exec_estopLoopOpen (watched_of hh h1), answers_next]
    exact loop_trips (s := s.onInp fun p => { p with loopOpen := true }) h2 rfl
  · exact (answers_next _ _).2 (level_trips rfl hh h1 h2 hp _)
  · exact (answers_next _ _).2 (level_trips rfl hh h1 h2 hp _)
  · exact (answers_next _ _).2 (ready_trips h1 h2 hd hr hp _ rfl)
  · have he : exec .wakeTimeout s = .next (finish (enterTripped (.fault .driveReady) (latch .driveReady s))) := by
      rw [← dropDemand_trips (u := latch .driveReady s) h1 h2]
      exact if_pos ⟨hw, hwt⟩
    rw [he, answers_next]
    exact (found_latch _ s).trips (trips_off rfl)
  · have he : exec .brakeReleaseTimeout s =
        .next (finish (enterTripped (.fault .brakeRelease) (latch .brakeRelease s))) := if_pos ⟨hr, hb⟩
    rw [he, answers_next]
    exact (found_latch _ s).trips (.inl (trippedHolding_of_unlatched (by simpa [isLatched] using hl)))
  · have he : loseReady (s.onInp fun p => { p with driveReady := false }) = s.onInp fun p => { p with driveReady := false } := by
      refine loseReady_unseen (h.imp_left fun hd => ?_)
      rw [← hd]; exact driveEn_congr rfl rfl (.inl rfl)
    exact congrArg Host.Outcome.next ((congrArg finish he).trans (finish_of hs rfl rfl rfl rfl rfl))
  · refine period_trips hu h1 fun w hw => ?_
    have hsw := (hw.overspeeds h1 h2 (by simp [hw.overspeed, hf.1]) hf.2).1 (by simp [hw.encoder, hn])
    exact ⟨hsw.axis, hsw.answers⟩
  · refine period_trips hu h1 fun w hw => ?_
    have hsw := (hw.overspeeds h1 h2 (by simp [hw.overspeed, hf.1]) hf.2).2 (by simp [hw.encoder, hj.1]) hj.2
    exact ⟨hsw.axis, hsw.answers⟩
  · refine period_trips hu h1 fun w hw => ?_
    have hsw := hw.jumps h1 h2 (by simp [hw.overspeed, hf]) (by simp [hw.encoder, hj.1]) hj.2 hb
    exact ⟨hsw.axis, hsw.answers⟩
  · refine period_trips hu h1 fun w hw => ?_
    obtain ⟨ha, hoff, hlat, href, hctx, harm⟩ := hw.jumped h1 h2 (by simp [hw.encoder, hj.1]) hj.2
    refine ⟨ha, by simp [ha], (finish_driveOff _).2 hoff, ?_, by simp [href], by simp [hctx], by simp [harm]⟩
    rw [isLatched, finish_sup]; exact hlat

end Sys2Proof.Machine


/-! PROOFS. A profile period at rest: TRACK and HOLD (R22, R24). -/

namespace Sys2Proof.Machine

section modes
variable {s u v w t : State} {x : CueContext} {m : MoveInputs}

/-! ## The generator's part, as one record -/

theorem updateProgress_eq (v : State) :
    updateProgress v = v.onGen fun g => { g with progress := (updateProgress v).gen.progress } := by
  obtain ⟨n, hn⟩ := updateProgress_shape v
  rw [hn]; rfl

theorem fireMarks_eq (old : Position) (v : State) : fireMarks old v = { v with
    gen := { v.gen with fired := (fireMarks old v).gen.fired }
    line := (fireMarks old v).line } := by
  cases hx : v.ctl.ctx with
  | none => simp [fireMarks, hx]
  | some x =>
    cases hm : x.move with
    | none => simp [fireMarks, hx, hm]
    | some m =>
      simp only [fireMarks, hx, hm]
      generalize firedBy _ _ _ _ _ = new
      rw [foldl_queueMark]
      rfl

/-- What the marks and the progress leave: stop point and velocity do not read them. -/
def marked (old : Position) (v : State) : State := fireMarks old (updateProgress v)

theorem marked_eq (old : Position) (v : State) : marked old v = { v with
    gen := { v.gen with progress := (updateProgress v).gen.progress, fired := (marked old v).gen.fired }
    line := (marked old v).line } := by
  have h : marked old v = { updateProgress v with
      gen := { (updateProgress v).gen with fired := (marked old v).gen.fired }
      line := (marked old v).line } := fireMarks_eq old (updateProgress v)
  generalize marked old v = z at h ⊢
  exact h.trans (congrArg (fun p : State => { p with gen := { p.gen with fired := z.gen.fired }, line := z.line })
    (updateProgress_eq v))

/-- Set-point and velocity published at the end of a period, with the duty written (R40, R42 to R44). -/
theorem publish_eq (mode : GenMode) (v : State) (p : Nat) (f : List Nat) (l : LinePort) :
    let z : State := { v with gen := { v.gen with progress := p, fired := f }, line := l }
    writeDuty (dutyIn (publish mode z) mode) (publish mode z) = { v with
      gen := { v.gen with
        progress := p
        fired := f
        stopPoint := stopPointIn v mode
        pub := ⟨v.gen.s.toNat / 1000, velocityIn v mode, (stopPointIn v mode).toNat / 1000⟩ }
      line := l
      meas := { v.meas with pendingDuty := if driveEn v then dutyIn v mode else 2048 } } := by
  cases mode <;> rfl

theorem runGenerator_eq (h : generate u = (v, r)) : runGenerator u = ({ v with
    gen := { v.gen with
      progress := (updateProgress v).gen.progress
      fired := (marked u.gen.s v).gen.fired
      stopPoint := stopPointIn v (modeOf u)
      pub := ⟨v.gen.s.toNat / 1000, velocityIn v (modeOf u), (stopPointIn v (modeOf u)).toNat / 1000⟩ }
    line := (marked u.gen.s v).line
    meas := { v.meas with pendingDuty := if driveEn v then dutyIn v (modeOf u) else 2048 } }, r) := by
  have hrun : runGenerator u = (writeDuty (dutyIn (publish (modeOf u) (marked u.gen.s v)) (modeOf u))
      (publish (modeOf u) (marked u.gen.s v)), r) := by
    simp only [runGenerator, h]; rfl
  rw [hrun, marked_eq]
  exact congrArg (·, r) (publish_eq _ _ _ _ _)

/-! ## A calm period -/

/-- A period that raises none of the three conditions acts on its report after marking them absent. -/
theorem period_calm (h : Unreferencing s) (ha : s.seq.axis ≠ .unaddressed) (hc : CalmUnder (speedLimit s) s)
    (hf : brakeRel s = true →
      (errorNow (runGenerator (beforeGenerator s)).1).natAbs ≤ s.store.live.followLimit * 1000) :
    exec .profilePeriod s = .next (finish (actOn (runGenerator (beforeGenerator s)).2
      (judged (runGenerator (beforeGenerator s)).1))) := by
  have hj := judged_of h
  have hb : brakeRel (runGenerator (beforeGenerator s)).1 = brakeRel s := by rw [brakeRel, brakeRel, hj.seq]
  rw [exec_period (watched_of h.1 ha), judgeMotion_calm]
  · rw [hj.overspeed]; exact decide_eq_false (Nat.not_lt.2 hc.1)
  · rw [hj.encoder]; exact decide_eq_false (Nat.not_lt.2 hc.2)
  · rw [hb, store_of_base hj.base]; exact hf

theorem finish_judged (hs : Settled s) (hj : Judged s w) (hctl : w.ctl.ctx.isNone = s.ctl.ctx.isNone) :
    finish (judged w) = judged w := by
  obtain ⟨r, hr⟩ := judged_shape w
  rw [hr]
  exact finish_of hs hj.statusDue hj.seq (by rw [hj.armed]) hctl (by rw [store_of_base hj.base])

/-- The measured values at the end of a period, with the duty it writes. -/
theorem Judged.measured (hj : Judged s w) : w.meas = { s.meas with
    latched := some s.meas.count
    measured := periodMeasured s
    change := periodChange s
    displacement := periodDisplacement s
    converting := true
    pendingDuty := w.meas.pendingDuty } := by
  obtain ⟨d, hd⟩ := hj.meas
  rw [hd]; rfl

theorem periodTaken_of (hj : Judged s w) (hg : w.guard = (sensed s).guard) (hm : t.meas = w.meas)
    (hgt : t.guard = w.guard) : PeriodTaken s t := by
  simp only [PeriodTaken, hm, hgt, hg]
  rw [hj.measured]
  exact ⟨rfl, rfl, rfl, rfl, rfl, rfl, rfl, rfl, rfl, rfl⟩

/-! ## O55 -/

theorem beforeGenerator_resting (h : Unreferencing s) (hh : s.gen.homing = none) (ht : targetPeriod s = false) :
    beforeGenerator s = sensed s := by
  rw [beforeGenerator_eq h (homingSearch_none hh), couple_off]
  exact ht

end modes

/-- What a period at rest leaves: `rested` of the statement. -/
def Rested (s t : State) (point : Position) (duty : Nat) : Prop :=
  PeriodTaken s t ∧
    t.meas = { s.meas with
      latched := some s.meas.count
      measured := periodMeasured s
      change := periodChange s
      displacement := periodDisplacement s
      converting := true
      pendingDuty := duty } ∧
    t.gen.s = point ∧ t.gen.v = 0 ∧ t.gen.stopPoint = point ∧
    t.gen.pub = ⟨point.toNat / 1000, 0, point.toNat / 1000⟩ ∧ t.seq = s.seq ∧ t.ctl = s.ctl ∧
    t.sup.latched = s.sup.latched ∧ t.peers = s.peers ∧ base t = base s

section rest
variable {s : State}

/-- The generator's part of a quiet period: the set-point at velocity 0 is published as it stands (R24, R40, R44). -/
theorem runGenerator_rested {u : State} {point : Position} {r : GenReport}
    (hgen : generate u = (u.onGen fun g => { g with s := point, v := 0 }, r)) (hmode : modeOf u = .track ∨ modeOf u = .hold) :
    let w := (runGenerator u).1
    w.gen.s = point ∧ w.gen.v = 0 ∧ w.gen.stopPoint = point ∧ w.gen.pub = ⟨point.toNat / 1000, 0, point.toNat / 1000⟩ ∧
      w.meas.pendingDuty = (if driveEn u then
          if modeOf u = .track ∨ u.seq.axis = .suspended ∨ u.seq.axis = .recovering then 2048
          else loopDuty u 0 point u.meas.measured
        else 2048) ∧ w.guard = u.guard ∧ w.ctl = u.ctl ∧ (runGenerator u).2 = r := by
  rw [runGenerator_eq hgen]
  rcases hmode with h | h <;> rw [h] <;> exact ⟨rfl, rfl, rfl, rfl, rfl, rfl, rfl, rfl⟩

/-- A quiet period in TRACK or HOLD, its set-point given. -/
theorem period_rested (hs : Settled s) (h : Unreferencing s) (hh : s.gen.homing = none) (hc : CalmUnder (speedLimit s) s)
    (ha : s.seq.axis ≠ .unaddressed) (ht : targetPeriod s = false) {point : Position} {duty : Nat}
    (hgen : generate (sensed s) = ((sensed s).onGen fun g => { g with s := point, v := 0 }, .quiet))
    (hmode : modeOf s = .track ∨ modeOf s = .hold)
    (hf : brakeRel s = true → FollowsWithin s point (periodMeasured s))
    (hd : (if driveEn s then
        if modeOf s = .track ∨ s.seq.axis = .suspended ∨ s.seq.axis = .recovering then 2048
        else loopDuty s 0 point (periodMeasured s)
      else 2048) = duty) :
    Answers (exec .profilePeriod s) fun t => Rested s t point duty := by
  have hb := beforeGenerator_resting h hh ht
  have hj := judged_of h
  obtain ⟨hpoint, hv, hstop, hpub, hduty, hguard, hctl, hrep⟩ := runGenerator_rested hgen hmode
  have hcalm := period_calm h ha hc
  rw [hb] at hj hcalm
  rw [hrep] at hcalm
  replace hduty := hduty.trans hd
  replace hctl : (runGenerator (sensed s)).1.ctl = s.ctl := hctl
  generalize (runGenerator (sensed s)).1 = w at *
  have hmeas := hj.measured
  rw [hduty] at hmeas
  have herr : errorNow w = positionError point (periodMeasured s) := by rw [errorNow, hpoint, hmeas]
  rw [hcalm (by rw [herr]; exact hf), answers_next]
  have hfin : finish (actOn .quiet (judged w)) = judged w := finish_judged hs hj (by rw [hctl])
  obtain ⟨r, hr⟩ := judged_shape w
  rw [hfin, hr]
  exact ⟨periodTaken_of hj hguard rfl rfl, hmeas, hpoint, hv, hstop, hpub, hj.seq, hctl,
    show w.sup.latched = _ by rw [hj.sup], hj.peers, hj.base⟩

end rest

/-- Settles O55: TRACK takes the measured position, HOLD keeps the set-point; the rest is `period_rested`. -/
theorem periodTracksAtRest : Obligations.PeriodTracksAtRest := by
  intro s hs hu hh hc
  refine ⟨fun ha => ?_, fun hl ha hf => ?_⟩
  · have hmode : modeOf s = .track := by
      rcases ha with ha | ⟨ha, hd⟩
      · simp only [List.mem_cons, List.not_mem_nil, or_false] at ha
        rcases ha with ha | ha | ha <;> simp [modeOf, ha]
      · simp [modeOf, ha, hd]
    have hgen : generate (sensed s) = ((sensed s).onGen fun g => { g with s := periodMeasured s, v := 0 }, .quiet) := by
      have : modeOf (sensed s) = .track := hmode
      simp only [generate, this]; rfl
    have hno : s.seq.axis ≠ .unaddressed ∧ targetPeriod s = false ∧ brakeRel s = false := by
      simp only [List.mem_cons, List.not_mem_nil, or_false] at ha
      rcases ha with (ha | ha | ha) | ⟨ha, -⟩ <;> simp [targetPeriod, stoppingOf, brakeRel, brakeRelIn, ha]
    exact period_rested hs hu hh hc hno.1 hno.2.1 hgen (.inl hmode) (fun hb => by simp [hno.2.2] at hb) (by simp [hmode])
  · have hmode : modeOf s = .hold := by
      rcases ha with ha | ⟨ha, hd⟩
      · simp only [List.mem_cons, List.not_mem_nil, or_false] at ha
        rcases ha with ha | ha | ha <;> simp [modeOf, ha]
      · simp [modeOf, ha, hd]
    have hsus : s.seq.axis ≠ .suspended ∧ s.seq.axis ≠ .unaddressed ∧ targetPeriod s = false := by
      simp only [List.mem_cons, List.not_mem_nil, or_false] at ha
      rcases ha with (ha | ha | ha) | ⟨ha, -⟩ <;> simp [targetPeriod, stoppingOf, ha]
    have hgen : generate (sensed s) = ((sensed s).onGen fun g => { g with s := s.gen.s, v := 0 }, .quiet) := by
      have h1 : modeOf (sensed s) = .hold := hmode
      have h2 : ¬((sensed s).seq.axis = .suspended ∧ resumeTest (sensed s) = true) := fun h => hsus.1 h.1
      simp only [generate, h1, holdMode, if_neg h2]; rfl
    have hd : driveEn s = true := by
      rcases ha with ha | ⟨-, hd⟩
      · simp only [List.mem_cons, List.not_mem_nil, or_false] at ha
        rcases ha with ha | ha | ha <;> simp [driveEn, hl, ha]
      · exact hd
    refine period_rested hs hu hh hc hsus.2.1 hsus.2.2 hgen (.inr hmode) (fun hb => hf ?_) ?_
    · simp only [List.mem_cons, List.not_mem_nil, or_false] at ha
      rcases ha with (ha | ha | ha) | ⟨ha, -⟩ <;> simp [brakeRel, brakeRelIn, ha] at hb ⊢
    · simp [hd, hmode, hsus.1]

end Sys2Proof.Machine


/-! PROOFS. A profile period of a cue with a move: the RUN and FAST modes (R30 to R36, R39 to R43). -/

namespace Sys2Proof.Machine

section cue
variable {s u v w t : State} {x : CueContext} {m : MoveInputs}

/-! ## The generator's part for a cue -/

theorem updateProgress_moving (hx : v.ctl.ctx = some x) (hm : x.move = some m) (hp : x.phase ≠ .starting) :
    updateProgress v = v.onGen fun g => { g with progress := max g.progress (progressValue m g.s) } := by
  simp [updateProgress, hx, hm, hp]

theorem marked_moving (old : Position) (hx : v.ctl.ctx = some x) (hm : x.move = some m) (hp : x.phase ≠ .starting) :
    (marked old v).gen.fired = joinFired v.gen.fired (firedBy m.dir old v.gen.s x.record.cue.marks v.gen.fired) ∧
    (marked old v).line =
      ((firedBy m.dir old v.gen.s x.record.cue.marks v.gen.fired).foldl (queueMark x.record.cue.number) v).line := by
  rw [marked, updateProgress_moving hx hm hp]
  have hx' : (v.onGen fun g => { g with progress := max g.progress (progressValue m g.s) }).ctl.ctx = some x := hx
  simp only [fireMarks, hx', hm]
  generalize hn : firedBy m.dir old _ _ _ = new
  have hn' : firedBy m.dir old v.gen.s x.record.cue.marks v.gen.fired = new := hn
  rw [hn', foldl_queueMark]
  exact ⟨rfl, foldl_queueMark_line _ _ _ _ rfl⟩

/-- The deceleration of a cue's stop point, by the mode (R40). -/
def stopsBy (s : State) (mode : GenMode) (m : MoveInputs) (decel : Nat) : Prop :=
  (mode = .run ∧ decel = m.decel) ∨ (mode = .fast ∧ decel = s.store.live.emergency)

/-- Stop point and velocity of a mode that moves a cue (R40, R42). -/
theorem cue_outputs {z : State} {mode : GenMode} {decel : Nat} (hc : cueMove z = some m) (h : stopsBy z mode m decel) :
    stopPointIn z mode = forward m.dir z.gen.s (min (stoppingDistance z.gen.v decel) (remainingTo m z.gen.s)) ∧
    velocityIn z mode = signedVelocity m.dir z.gen.v ∧ mode ≠ .track := by
  rcases h with ⟨rfl, rfl⟩ | ⟨rfl, rfl⟩
  · simp only [stopPointIn, velocityIn, movingDir, hc]
    exact ⟨rfl, rfl, nofun⟩
  · simp only [stopPointIn, velocityIn, movingDir, hc]
    exact ⟨rfl, rfl, nofun⟩

/-- The generator's part of a period of a cue: where it leaves the generator, the marks and the duty. -/
theorem runGenerator_cue {point : Position} {vel decel : Nat} {f : Generator → Generator} {r : GenReport}
    (hx : u.ctl.ctx = some x) (hm : x.move = some m) (hp : x.phase ≠ .starting) (hgen : generate u = (u.onGen f, r))
    (hs : (f u.gen).s = point) (hv : (f u.gen).v = vel) (hpr : (f u.gen).progress = u.gen.progress)
    (hfi : (f u.gen).fired = u.gen.fired) (hmode : stopsBy u (modeOf u) m decel) :
    let w := (runGenerator u).1
    MovedTo u w x m point vel decel ∧ w.gen.fired = joinFired u.gen.fired (firedAt u x m point) ∧
      w.meas.pendingDuty = (if driveEn u then
          if u.seq.axis = .suspended ∨ u.seq.axis = .recovering then 2048
          else loopDuty u (signedVelocity m.dir vel) point u.meas.measured
        else 2048) ∧ w.guard = u.guard ∧ w.ctl = u.ctl ∧ (runGenerator u).2 = r := by
  have hx' : (u.onGen f).ctl.ctx = some x := hx
  have hc : cueMove (u.onGen f) = some m := by rw [cueMove, hx']; exact hm
  obtain ⟨hfired, hline⟩ := marked_moving u.gen.s hx' hm hp
  obtain ⟨hstop, hvel, htrack⟩ := cue_outputs (z := u.onGen f) hc hmode
  have hduty : dutyIn (u.onGen f) (modeOf u) = if u.seq.axis = .suspended ∨ u.seq.axis = .recovering then 2048
      else loopDuty u (signedVelocity m.dir vel) point u.meas.measured := by
    simp only [dutyIn, htrack, false_or, hvel, onGen_gen, hv, errorNow, hs]
    rfl
  rw [runGenerator_eq hgen, hfired, hline, updateProgress_moving hx' hm hp, hstop, hvel, hduty]
  simp only [onGen_gen, hs, hv, hpr, hfi]
  exact ⟨⟨rfl, rfl, rfl, rfl, rfl, congrArg _ (foldl_queueMark_line _ _ _ _ rfl)⟩, rfl, rfl, rfl, rfl, trivial⟩

/-! ## The period of a running cue -/

/-- The coupler's flags are recomputed in a period with a velocity target (R98). -/
theorem beforeGenerator_coupled (h : Unreferencing s) (hh : s.gen.homing = none) (ht : targetPeriod s = true)
    (hx : s.ctl.ctx = some x) : beforeGenerator s =
      (sensed s).onCtl fun c => { c with ctx := some (pacedContext s x) } := by
  have hx' : (sensed s).ctl.ctx = some x := hx
  rw [beforeGenerator_eq h (homingSearch_none hh), couple_on (u := sensed s) ht, onCtx, State.onCtl, hx']
  rfl

/-- The state before the generator of a coupled period. -/
def coupled (s : State) (x : CueContext) : State := (sensed s).onCtl fun c => { c with ctx := some (pacedContext s x) }

theorem velocityTarget_coupled (m : MoveInputs) : velocityTarget (coupled s x) (pacedContext s x) m =
    periodTarget s x m (stoppingOf s .controlled) := by
  have hv : cueVg (coupled s x) (pacedContext s x) = cueVg s x := rfl
  have hs : stopDemanded (coupled s x) (pacedContext s x) = (!s.ctl.enableFresh || stoppingOf s .controlled ||
      staleReportOf x.record.cue.number s.gen.progress s.peers x.views) := rfl
  have hl : vLimit m.vmax (coupled s x).ctl.override = m.vmax * s.ctl.override / 100 := rfl
  simp only [velocityTarget, periodTarget, hv, hs, hl, Bool.or_eq_true, Bool.not_eq_true']
  congr 2
  by_cases h1 : s.ctl.enableFresh = false <;> by_cases h2 : stoppingOf s .controlled = true <;> simp [h1, h2]

theorem roomOf_coupled (m : MoveInputs) : roomOf (coupled s x) m = periodRoom s m := rfl

/-- The RUN step of a coupled period (R30 to R33). -/
theorem runStep_coupled (m : MoveInputs) :
    runStep (coupled s x) (pacedContext s x) m = periodStep s m (periodTarget s x m (stoppingOf s .controlled)) := by
  rw [runStep, velocityTarget_coupled, roomOf_coupled]
  rfl

theorem periodTarget_stopping (m : MoveInputs) : periodTarget s x m true = 0 := by simp [periodTarget]

theorem generate_run (hx : u.ctl.ctx = some x) (hm : x.move = some m) (hmode : modeOf u = .run) :
    generate u = (u.onGen (runGen m (runStep u x m)), .ran (runStep u x m).v (runStep u x m).arrived) := by
  simp [generate, hmode, runMode, hx, hm]

theorem generate_fast (hx : u.ctl.ctx = some x) (hm : x.move = some m) (hmode : modeOf u = .fast) :
    generate u = (u.onGen fun g => { g with s := steppedPoint m g.s (fastStep u m), v := (fastStep u m).v },
      .slowed (fastStep u m).v) := by
  have hc : cueMove u = some m := by rw [cueMove, hx]; exact hm
  simp only [generate, hmode, fastMode, hc]

/-- What the speed tests of a period of a cue judge: the step taken, the values published, the flags recomputed. -/
structure Stepped (s w : State) (x : CueContext) (m : MoveInputs) (point : Position) (vel decel : Nat)
    (ctl : CueControl) : Prop where
  judged : Judged s w
  moved : MovedTo s w x m point vel decel
  fired : w.gen.fired = joinFired s.gen.fired (firedAt s x m point)
  duty : w.meas.pendingDuty = (if driveEn s then
      if s.seq.axis = .suspended ∨ s.seq.axis = .recovering then 2048
      else loopDuty s (signedVelocity m.dir vel) point (periodMeasured s)
    else 2048)
  guard : w.guard = (sensed s).guard
  ctl_eq : w.ctl = ctl

theorem Stepped.error {point : Position} {vel decel : Nat} {ctl : CueControl} (h : Stepped s w x m point vel decel ctl) :
    errorNow w = positionError point (periodMeasured s) := by
  rw [errorNow, h.moved.1, h.judged.measured]

/-- The generator's part of a coupled period: the RUN step of its velocity target. -/
theorem stepped_run (h : Unreferencing s) (hh : s.gen.homing = none) (ht : targetPeriod s = true)
    (hx : s.ctl.ctx = some x) (hm : x.move = some m) (hp : x.phase ≠ .starting) (hmode : modeOf s = .run) :
    let p := periodStep s m (periodTarget s x m (stoppingOf s .controlled))
    Stepped s (runGenerator (beforeGenerator s)).1 x m (steppedPoint m s.gen.s p) p.v m.decel
      { s.ctl with ctx := some (pacedContext s x) } ∧
    (runGenerator (beforeGenerator s)).2 = .ran p.v p.arrived := by
  intro p
  have hj := judged_of h
  have hb : beforeGenerator s = coupled s x := beforeGenerator_coupled h hh ht hx
  have hgen := generate_run (u := coupled s x) (x := pacedContext s x) rfl hm hmode
  rw [runStep_coupled] at hgen
  obtain ⟨hmoved, hfired, hduty, hguard, hctl, hrep⟩ := runGenerator_cue (u := coupled s x) (x := pacedContext s x)
    (decel := m.decel) rfl hm hp hgen rfl rfl rfl rfl (.inl ⟨hmode, rfl⟩)
  rw [hb] at hj ⊢
  have hmarks : ((firedAt s x m (steppedPoint m s.gen.s p)).foldl (queueMark x.record.cue.number) (coupled s x)).line.marks =
      ((firedAt s x m (steppedPoint m s.gen.s p)).foldl (queueMark x.record.cue.number) s).line.marks :=
    congrArg _ (foldl_queueMark_line _ _ _ _ rfl)
  obtain ⟨m1, m2, m3, m4, m5, m6⟩ := hmoved
  exact ⟨⟨hj, ⟨m1, m2, m3, m4, m5, m6.trans hmarks⟩, hfired, hduty, hguard, hctl⟩, hrep⟩

/-- The generator's part of a FAST stop of a cue (R36). -/
theorem stepped_fast (h : Unreferencing s) (hh : s.gen.homing = none) (ht : targetPeriod s = false)
    (hx : s.ctl.ctx = some x) (hm : x.move = some m) (hp : x.phase ≠ .starting) (hmode : modeOf s = .fast) :
    let p := fastPeriod s.gen.v s.store.live.emergency (remainingTo m s.gen.s)
    Stepped s (runGenerator (beforeGenerator s)).1 x m (steppedPoint m s.gen.s p) p.v s.store.live.emergency s.ctl ∧
    (runGenerator (beforeGenerator s)).2 = .slowed p.v := by
  intro p
  have hj := judged_of h
  have hb : beforeGenerator s = sensed s := beforeGenerator_resting h hh ht
  have hgen := generate_fast (u := sensed s) (x := x) hx hm hmode
  obtain ⟨hmoved, hfired, hduty, hguard, hctl, hrep⟩ := runGenerator_cue (u := sensed s) (x := x)
    (decel := s.store.live.emergency) hx hm hp hgen rfl rfl rfl rfl (.inr ⟨hmode, rfl⟩)
  rw [hb] at hj ⊢
  have hmarks : ((firedAt s x m (steppedPoint m s.gen.s p)).foldl (queueMark x.record.cue.number) (sensed s)).line.marks =
      ((firedAt s x m (steppedPoint m s.gen.s p)).foldl (queueMark x.record.cue.number) s).line.marks :=
    congrArg _ (foldl_queueMark_line _ _ _ _ rfl)
  obtain ⟨m1, m2, m3, m4, m5, m6⟩ := hmoved
  exact ⟨⟨hj, ⟨m1, m2, m3, m4, m5, m6.trans hmarks⟩, hfired, hduty, hguard, hctl⟩, hrep⟩

end cue

end Sys2Proof.Machine


/-! PROOFS. The reports of a period of a cue acted on: moving on, held, arrived, stopped, strayed (R10, R13, R14, R19, R143). -/

namespace Sys2Proof.Machine

section reports
variable {s u v w z t : State} {x y : CueContext} {m : MoveInputs} {point : Position} {vel decel : Nat}

/-! ## What a period leaves, carried through the report -/

/-- The measured values, the guard, the point reached and the latched set of a period. -/
structure Carried (s t : State) (x : CueContext) (m : MoveInputs) (point : Position) (vel decel : Nat) : Prop where
  taken : PeriodTaken s t
  moved : MovedTo s t x m point vel decel
  latched : t.sup.latched = s.sup.latched
  base : base t = base s

theorem periodTaken_still (h : PeriodTaken s u) (hs : still t = still u) : PeriodTaken s t := by
  have hm : senses t.meas = senses u.meas := congrArg (·.1) hs
  have hg : bounds t.guard = bounds u.guard := congrArg (·.2.2.1) hs
  simp only [senses, bounds, Prod.mk.injEq] at hm hg
  obtain ⟨m1, m2, m3, m4, m5, m6, m7, m8, -⟩ := hm
  obtain ⟨g1, g2, g3⟩ := hg
  simpa only [PeriodTaken, m1, m2, m3, m4, m5, m6, m7, m8, g1, g2, g3] using h

theorem movedTo_path (h : MovedTo s u x m point vel decel) (hp : path t.gen = path u.gen)
    (hl : t.line.marks = u.line.marks) : MovedTo s t x m point vel decel := by
  simp only [path, Prod.mk.injEq] at hp
  obtain ⟨p1, p2, p3, p4, p5⟩ := hp
  simpa only [MovedTo, p1, p2, p3, p4, p5, hl] using h

theorem Carried.of_same (h : Carried s u x m point vel decel) (hs : still t = still u) (hp : path t.gen = path u.gen)
    (hm : t.line.marks = u.line.marks) (hl : t.sup.latched = u.sup.latched) (hb : Machine.base t = Machine.base u) :
    Carried s t x m point vel decel :=
  ⟨periodTaken_still h.taken hs, movedTo_path h.moved hp hm, hl.trans h.latched, hb.trans h.base⟩

theorem Carried.finish (h : Carried s u x m point vel decel) : Carried s (finish u) x m point vel decel :=
  h.of_same (by simp) (by simp) (by simp) (by simp) (by simp)

theorem Carried.setAxis (h : Carried s u x m point vel decel) (a : AxisState) : Carried s (setAxis a u) x m point vel decel :=
  h.of_same (by simp) (by simp) (by simp [noteChange]) (by simp) (by simp)

theorem Carried.onSeq (h : Carried s u x m point vel decel) (f : Sequencer → Sequencer) :
    Carried s (u.onSeq f) x m point vel decel := h.of_same rfl rfl rfl rfl rfl

theorem Stepped.carried {ctl : CueControl} (h : Stepped s w x m point vel decel ctl) : Carried s (Machine.judged w) x m point vel decel := by
  obtain ⟨r, hr⟩ := judged_shape w
  rw [hr]
  refine ⟨periodTaken_of h.judged h.guard rfl rfl, h.moved, ?_, h.judged.base⟩
  show w.sup.latched = _
  rw [h.judged.sup]

/-- The state judged, but for what is present and the recovery record. -/
theorem judged_keeps (w : State) : (judged w).seq = w.seq ∧ (judged w).ctl = w.ctl ∧ (judged w).gen = w.gen ∧
    (judged w).meas = w.meas ∧ (judged w).peers = w.peers ∧ (judged w).line = w.line ∧ (judged w).inp = w.inp ∧
    (judged w).store = w.store ∧ (judged w).table = w.table := by
  obtain ⟨r, hr⟩ := judged_shape w
  rw [hr]; exact ⟨rfl, rfl, rfl, rfl, rfl, rfl, rfl, rfl, rfl⟩

theorem inp_of_base (h : base t = base s) : t.inp = s.inp := ((base_eq_iff _ _).1 h).2.2.2.2.1

/-! ## Axis changes at the end of a period -/

/-- A change to a state whose duty is the position loop's keeps the duty written (R2, R135). -/
theorem setAxis_loopDuty {a : AxisState} (ha : a ∈ [AxisState.moving, .held, .setting, .stopping]) (hl : z.inp.loopOpen = false) :
    (setAxis a z).meas.pendingDuty = z.meas.pendingDuty := by
  have hz : dutyAtZero ((z.onSeq (seqIn a)).onSup (presenceIn a)) = false := by
    simp only [List.mem_cons, List.not_mem_nil, or_false] at ha
    rcases ha with rfl | rfl | rfl | rfl <;> simp [dutyAtZero, driveEn, hl]
  have h := (setAxis_duty a z).1
  rw [hz] at h
  exact h

/-- A set that waits in SETTING at the end of a command (R16). -/
theorem finish_enterSetting (d : SetDest) (hb : z.inp.brakeReleased = true) :
    let t := finish (enterSetting d z)
    t.seq.axis = .setting ∧ t.seq.dest = d ∧ t.seq.brake = some z.store.live.brakeTime ∧ brakeRel t = false ∧
      t.ctl = z.ctl ∧ t.peers = z.peers ∧ t.gen.fired = z.gen.fired ∧
      (z.inp.loopOpen = false → t.meas.pendingDuty = z.meas.pendingDuty) ∧
      (Carried s z x m point vel decel → Carried s t x m point vel decel) := by
  rw [enterSetting_waits d z hb]
  refine ⟨by simp, by simp, by simp, by simp [brakeRel, brakeRelIn], by simp, by simp, by simp, fun hl => ?_,
    fun h => ((h.setAxis _).onSeq _).finish⟩
  rw [finish_meas, onSeq_meas, setAxis_loopDuty (by decide) hl]

/-! ## Ends of cues -/

theorem pendingCues_nil (h : pendingCues z = []) : ∀ a ∈ z.ctl.armed, a.trigger ≠ some .pending := by
  intro a ha hp
  have : a.cue ∈ pendingCues z := List.mem_map.2 ⟨a, List.mem_filter.2 ⟨ha, by simp [hp]⟩, rfl⟩
  simp [h] at this

/-- With no follow cue PENDING, an end only removes the context (R73, R77). -/
theorem endCue_quiet {o : CueOutcome} (hy : z.ctl.ctx = some y) (hp : pendingCues z = []) :
    endCue o z = removeContext y o (remainingMm z y) z := by
  cases ho : runsOn o with
  | false => exact endCue_plain hy hp ho
  | true =>
    have hnone : ∀ a ∈ (removeContext y o (remainingMm z y) z).ctl.armed, a.trigger ≠ some .pending := pendingCues_nil hp
    simp only [endCue, hy]
    exact moveChains_quiet ho hnone

/-- An arrival: PENDING follow cues take their full delay (R73, R77). -/
theorem endCue_arrived (hy : z.ctl.ctx = some y) :
    endCue .arrived z = (removeContext y .arrived (remainingMm z y) z).onCtl fun c => { c with
      armed := c.armed.map fun a =>
        if a.trigger = some .pending then { a with trigger := some (.delaying (delayOf z a.cue)) } else a } := by
  have hd (n : Nat) : delayOf (removeContext y .arrived (remainingMm z y) z) n = delayOf z n := rfl
  simp only [endCue, hy, moveChains, hd]
  exact if_pos rfl

theorem Carried.removed (h : Carried s z x m point vel decel) (y : CueContext) (o : CueOutcome) (r : Nat) :
    Carried s (removeContext y o r z) x m point vel decel :=
  h.of_same (removeContext_still _ _ _ _) rfl rfl rfl (removeContext_base _ _ _ _)

theorem Carried.armed (h : Carried s z x m point vel decel) (l : List ArmedCue) :
    Carried s (z.onCtl fun c => { c with armed := l }) x m point vel decel := h.of_same rfl rfl rfl rfl rfl

/-! ## The reports -/

/-- A quiet report: the state judged stands (R10, R14). -/
theorem Stepped.goesOn {ctl : CueControl} (h : Stepped s w x m point vel decel ctl) (hs : Settled s)
    (hc : ctl.ctx.isNone = s.ctl.ctx.isNone) :
    let t := finish (Machine.judged w)
    Carried s t x m point vel decel ∧ t.seq = s.seq ∧ t.ctl = ctl ∧ t.peers = s.peers ∧ t.gen.fired = w.gen.fired ∧
      t.meas.pendingDuty = w.meas.pendingDuty := by
  obtain ⟨kseq, kctl, kgen, kmeas, kpeers, -⟩ := judged_keeps w
  have hcar := h.carried
  rw [finish_judged hs h.judged (by rw [h.ctl_eq, hc])]
  exact ⟨hcar, kseq.trans h.judged.seq, kctl.trans h.ctl_eq, kpeers.trans h.judged.peers, by rw [kgen], by rw [kmeas]⟩

/-- A report that changes the axis state (R10). -/
theorem Stepped.changes {ctl : CueControl} (h : Stepped s w x m point vel decel ctl) {a : AxisState}
    (ha : a ∈ [AxisState.moving, .held, .setting, .stopping]) (hl : s.inp.loopOpen = false) (f : Sequencer → Sequencer) :
    let t := finish ((setAxis a (Machine.judged w)).onSeq f)
    Carried s t x m point vel decel ∧ t.ctl = contextIn a ctl ∧ t.peers = s.peers ∧ t.gen.fired = w.gen.fired ∧
      t.meas.pendingDuty = w.meas.pendingDuty := by
  obtain ⟨kseq, kctl, kgen, kmeas, kpeers, -, kinp, -⟩ := judged_keeps w
  have hl' : (Machine.judged w).inp.loopOpen = false := by rw [kinp, inp_of_base h.judged.base]; exact hl
  refine ⟨((h.carried.setAxis a).onSeq f).finish, ?_, ?_, ?_, ?_⟩
  · rw [finish_ctl, onSeq_ctl, setAxis_ctl, kctl, h.ctl_eq]
  · rw [finish_peers, onSeq_peers, setAxis_peers, kpeers, h.judged.peers]
  · rw [finish_gen_fired, onSeq_gen, setAxis_gen, kgen]
  · rw [finish_meas, onSeq_meas, setAxis_loopDuty ha hl', kmeas]

/-- The period of a cue in RUN mode, acting on its report. -/
theorem period_ran (h : Unreferencing s) (hc : CalmUnder m.vmax s) (hh : s.gen.homing = none)
    (ht : targetPeriod s = true) (hx : s.ctl.ctx = some x) (hm : x.move = some m) (hp : x.phase ≠ .starting)
    (hmode : modeOf s = .run) :
    let p := periodStep s m (periodTarget s x m (stoppingOf s .controlled))
    FollowsWithin s (steppedPoint m s.gen.s p) (periodMeasured s) →
    ∃ w, Stepped s w x m (steppedPoint m s.gen.s p) p.v m.decel { s.ctl with ctx := some (pacedContext s x) } ∧
      exec .profilePeriod s = .next (finish (actOnRun p.v p.arrived (Machine.judged w))) := by
  intro p hf
  obtain ⟨hw, hrep⟩ := stepped_run h hh ht hx hm hp hmode
  have ha : s.seq.axis ≠ .unaddressed := fun ha => by simp [modeOf, ha] at hmode
  have hlim : speedLimit s = m.vmax := by simp [speedLimit, cueMove, hx, hm]
  have he := period_calm h ha (by rw [hlim]; exact hc) (fun _ => by rw [hw.error]; exact hf)
  rw [hrep] at he
  exact ⟨_, hw, he⟩

/-- The period of a FAST stop of a cue, acting on its report (R36). -/
theorem period_slowed (h : Unreferencing s) (hc : CalmUnder m.vmax s) (hh : s.gen.homing = none)
    (ht : targetPeriod s = false) (hx : s.ctl.ctx = some x) (hm : x.move = some m) (hp : x.phase ≠ .starting)
    (hmode : modeOf s = .fast) :
    let p := fastPeriod s.gen.v s.store.live.emergency (remainingTo m s.gen.s)
    FollowsWithin s (steppedPoint m s.gen.s p) (periodMeasured s) →
    ∃ w, Stepped s w x m (steppedPoint m s.gen.s p) p.v s.store.live.emergency s.ctl ∧
      exec .profilePeriod s = .next (finish (actOnFast p.v (Machine.judged w))) := by
  intro p hf
  obtain ⟨hw, hrep⟩ := stepped_fast h hh ht hx hm hp hmode
  have ha : s.seq.axis ≠ .unaddressed := fun ha => by simp [modeOf, ha] at hmode
  have hlim : speedLimit s = m.vmax := by simp [speedLimit, cueMove, hx, hm]
  have he := period_calm h ha (by rw [hlim]; exact hc) (fun _ => by rw [hw.error]; exact hf)
  rw [hrep] at he
  exact ⟨_, hw, he⟩

end reports

end Sys2Proof.Machine


/-! PROOFS. The period of a running cue, a FAST stop and FOLLOWING (R10, R13, R26 to R36, R139, R143). -/

namespace Sys2Proof.Machine

section running
variable {s w t : State} {x : CueContext} {m : MoveInputs} {point : Position} {vel decel : Nat} {ctl : CueControl}

theorem stoppingOf_off {k : StopKind} (ha : s.seq.axis ≠ .stopping) : stoppingOf s k = false := by simp [stoppingOf, ha]

theorem Stepped.loop (h : Stepped s w x m point vel decel ctl) (hl : s.inp.loopOpen = false)
    (ha : s.seq.axis ∈ [AxisState.moving, .held, .stopping]) :
    w.meas.pendingDuty = loopDuty s (signedVelocity m.dir vel) point (periodMeasured s) := by
  rw [h.duty]
  simp only [List.mem_cons, List.not_mem_nil, or_false] at ha
  rcases ha with ha | ha | ha <;> simp [driveEn, hl, ha]

/-- What a RUN period of a cue leaves: `ran` and `fired` of the statement. -/
def Ran (s t : State) (x : CueContext) (m : MoveInputs) (point : Position) (vel : Nat) : Prop :=
  PeriodTaken s t ∧ MovedTo s t x m point vel m.decel ∧ t.sup.latched = s.sup.latched ∧
    t.meas.pendingDuty = loopDuty s (signedVelocity m.dir vel) point (periodMeasured s) ∧ base t = base s

theorem Carried.ran (h : Carried s t x m point vel m.decel) (hw : Stepped s w x m point vel m.decel ctl)
    (hl : s.inp.loopOpen = false) (ha : s.seq.axis ∈ [AxisState.moving, .held, .stopping])
    (hd : t.meas.pendingDuty = w.meas.pendingDuty) : Ran s t x m point vel :=
  ⟨h.taken, h.moved, h.latched, hd.trans (hw.loop hl ha), h.base⟩

/-! ## The three reports of MOVING and HELD -/

section moving
variable (hs : Settled s) (hx : s.ctl.ctx = some x) (hl : s.inp.loopOpen = false)
  (ha : s.seq.axis = .moving ∨ s.seq.axis = .held)
  (hw : Stepped s w x m point vel m.decel { s.ctl with ctx := some (pacedContext s x) })
include hs hx hl ha hw

/-- At a velocity above 0 the axis is MOVING, the hold time from 0 where it was HELD (R10, R71). -/
theorem report_moving (hv : vel ≠ 0) : let t := finish (actOnRun vel false (judged w))
    Ran s t x m point vel ∧ t.gen.fired = joinFired s.gen.fired (firedAt s x m point) ∧
      t.seq.axis = .moving ∧ (s.seq.axis = .moving → t.seq = s.seq) ∧ t.peers = s.peers ∧
      t.ctl = { s.ctl with
        ctx := some { pacedContext s x with holdTime := if s.seq.axis = .moving then x.holdTime else 0 } } := by
  have hseq : (judged w).seq = s.seq := (judged_keeps w).1.trans hw.judged.seq
  rcases ha with ha | ha
  · obtain ⟨hcar, h1, h2, h3, h4, h5⟩ := hw.goesOn hs (by simp [hx])
    have he : actOnRun vel false (judged w) = judged w := by simp [actOnRun, hseq, ha, hv]
    rw [he]
    refine ⟨hcar.ran hw hl (by simp [ha]) h5, h4.trans hw.fired, by rw [h1, ha], fun _ => h1, h3, ?_⟩
    rw [h2, if_pos ha]; rfl
  · obtain ⟨hcar, h2, h3, h4, h5⟩ := hw.changes (a := .moving) (by decide) hl id
    have he : actOnRun vel false (judged w) = setAxis .moving (judged w) := by simp [actOnRun, hseq, ha, hv]
    have hid : setAxis .moving (judged w) = (setAxis .moving (judged w)).onSeq id := rfl
    rw [he, hid]
    refine ⟨hcar.ran hw hl (by simp [ha]) h5, h4.trans hw.fired, by simp, fun h => by simp [ha] at h, h3, ?_⟩
    rw [h2, if_neg (by simp [ha])]; rfl

/-- At velocity 0 the axis is HELD, the hold-to-brake timer started on the way there (R10). -/
theorem report_held (hv : vel = 0) : let t := finish (actOnRun vel false (judged w))
    Ran s t x m point vel ∧ t.gen.fired = joinFired s.gen.fired (firedAt s x m point) ∧
      t.seq.axis = .held ∧ (s.seq.axis = .moving → t.seq.hold = some (s.store.live.holdToBrake * 1000)) ∧
      (s.seq.axis = .held → t.seq = s.seq) ∧ t.ctl = { s.ctl with ctx := some (pacedContext s x) } ∧
      t.peers = s.peers := by
  have hseq : (judged w).seq = s.seq := (judged_keeps w).1.trans hw.judged.seq
  have hstore : (judged w).store = s.store := (judged_keeps w).2.2.2.2.2.2.2.1.trans (store_of_base hw.judged.base)
  rcases ha with ha | ha
  · obtain ⟨hcar, h2, h3, h4, h5⟩ := hw.changes (a := .held) (by decide) hl
      fun q => { q with hold := some (s.store.live.holdToBrake * 1000) }
    have he : actOnRun vel false (judged w) = (setAxis .held (judged w)).onSeq
        fun q => { q with hold := some (s.store.live.holdToBrake * 1000) } := by
      simp [actOnRun, hseq, ha, hv, enterHeld, hstore]
    rw [he]
    exact ⟨hcar.ran hw hl (by simp [ha]) h5, h4.trans hw.fired, by simp, fun _ => by simp, fun h => by simp [ha] at h,
      h2, h3⟩
  · obtain ⟨hcar, h1, h2, h3, h4, h5⟩ := hw.goesOn hs (by simp [hx])
    have he : actOnRun vel false (judged w) = judged w := by simp [actOnRun, hseq, ha, hv]
    rw [he]
    exact ⟨hcar.ran hw hl (by simp [ha]) h5, h4.trans hw.fired, by rw [h1, ha], fun h => by simp [ha] at h, fun _ => h1,
      h2, h3⟩

omit hs hx in
/-- At the target the cue ends ARRIVED and the brake is set (R13, R77). -/
theorem report_arrived (hnone : ∀ a ∈ s.ctl.armed, a.trigger ≠ some (.delaying 0))
    (hpend : ∀ a ∈ s.ctl.armed, a.trigger = some .pending → delayOf s a.cue ≠ 0) (hb : s.inp.brakeReleased = true) :
    let t := finish (actOnRun vel true (judged w))
    Ran s t x m point vel ∧ t.seq.axis = .setting ∧ t.seq.dest = .parked ∧
      t.seq.brake = some s.store.live.brakeTime ∧ brakeRel t = false ∧ t.gen.fired = [] ∧
      t.ctl = { s.ctl with
        ctx := none
        armed := s.ctl.armed.map fun a =>
          if a.trigger = some .pending then { a with trigger := some (.delaying (delayOf s a.cue)) } else a
        lastEvent := some (.ended x.record.cue.number .arrived
          (distance point.toNat (mmToNm x.record.cue.target) / 1000000)) } ∧
      t.peers = releasePeers x.record.cue.number s.peers := by
  obtain ⟨kseq, kctl, kgen, kmeas, kpeers, -, kinp, kstore, ktable⟩ := judged_keeps w
  have hcar := hw.carried
  have hbase := hcar.base
  have hctl : (judged w).ctl = { s.ctl with ctx := some (pacedContext s x) } := kctl.trans hw.ctl_eq
  have hpeers : (judged w).peers = s.peers := kpeers.trans hw.judged.peers
  have hpoint : (judged w).gen.s = point := hcar.moved.1
  have hact : actOnRun vel true (judged w) = arrive (judged w) := by
    have hseq := kseq.trans hw.judged.seq
    rcases ha with ha | ha <;> simp [actOnRun, hseq, ha]
  have htable : (judged w).table = s.table := ((base_eq_iff _ _).1 hbase).2.2.2.2.2.1
  have hdelay (n : Nat) : delayOf (judged w) n = delayOf s n := by rw [delayOf, delayOf, followOf, followOf, htable]
  rw [hact]
  generalize judged w = z at *
  have hz : z.ctl.ctx = some (pacedContext s x) := by rw [hctl]
  have hend := endCue_arrived hz
  have hcare : Carried s (endCue .arrived z) x m point vel m.decel := by
    rw [hend]; exact (hcar.removed _ _ _).armed _
  have hdrain : drainDelays (endCue .arrived z) = endCue .arrived z := by
    refine drainDelays_none fun a ha => ?_
    rw [hend] at ha
    obtain ⟨c, hc, rfl⟩ := List.mem_map.1 ha
    have hc' : c ∈ s.ctl.armed := by
      have : c ∈ z.ctl.armed := hc
      rwa [hctl] at this
    split
    · rename_i hp
      rw [hdelay]
      simpa using hpend c hc' hp
    · exact hnone c hc'
  have hb' : (endCue .arrived z).inp.brakeReleased = true := by rw [inp_of_base hcare.base]; exact hb
  obtain ⟨e1, e2, e3, e4, e5, e6, e7, e8, e9⟩ := finish_enterSetting (s := s) (x := x) (m := m) (point := point)
    (vel := vel) (decel := m.decel) .parked hb'
  rw [arrive, hdrain]
  have hmeas : (endCue .arrived z).meas = w.meas := by rw [hend, onCtl_meas, removeContext_meas, kmeas]
  have hl' : (endCue .arrived z).inp.loopOpen = false := by rw [inp_of_base hcare.base]; exact hl
  refine ⟨(e9 hcare).ran hw hl (by rcases ha with ha | ha <;> simp [ha]) ((e8 hl').trans (by rw [hmeas])), e1, e2,
    by rw [e3, store_of_base hcare.base], e4, ?_, ?_, ?_⟩
  · rw [e7, hend, onCtl_gen, removeContext_gen]
  · rw [e5, hend]
    simp only [onCtl_ctl, removeContext_ctl, hctl, hdelay, remainingMm, hpoint]
    rfl
  · rw [e6, hend, onCtl_peers, removeContext_peers, hpeers]; rfl

end moving

end running

end Sys2Proof.Machine


/-! PROOFS. A FAST stop of a cue and FOLLOWING in its periods (R19, R36, R139, R143, R145). -/

namespace Sys2Proof.Machine

section fast
variable {s w t : State} {x : CueContext} {m : MoveInputs} {point : Position} {vel decel : Nat} {ctl : CueControl}

/-- What a period of a FAST stop leaves: `braked` of the statement. -/
def Braked (s t : State) (x : CueContext) (m : MoveInputs) (point : Position) (vel : Nat) : Prop :=
  PeriodTaken s t ∧ MovedTo s t x m point vel s.store.live.emergency ∧
    t.gen.fired = joinFired s.gen.fired (firedAt s x m point) ∧
    t.sup.latched = s.sup.latched ∧ t.ctl = s.ctl ∧ t.peers = s.peers ∧ base t = base s

section stop
variable (hs : Settled s) (hx : s.ctl.ctx = some x) (ha : s.seq.axis = .stopping) (hk : s.seq.stopKind = .fast)
  (hw : Stepped s w x m point vel s.store.live.emergency s.ctl)
include hw

theorem report_slowed (hs : Settled s) (hv : vel ≠ 0) : let t := finish (actOnFast vel (judged w))
    Braked s t x m point vel ∧ t.seq = s.seq := by
  obtain ⟨hcar, h1, h2, h3, h4, -⟩ := hw.goesOn hs rfl
  have he : actOnFast vel (judged w) = judged w := by simp [actOnFast, hv]
  rw [he]
  exact ⟨⟨hcar.taken, hcar.moved, h4.trans hw.fired, hcar.latched, h2, h3, hcar.base⟩, h1⟩

include hx ha hk in
/-- At velocity 0 the stop ends and the brake is set toward its destination (R19). -/
theorem report_fastEnded (hv : vel = 0) (hb : s.inp.brakeReleased = true)
    (hd : s.seq.dest = .tripped ∨ x.phase = .running) : let t := finish (actOnFast vel (judged w))
    Braked s t x m point vel ∧ t.seq.axis = .setting ∧ t.seq.dest = s.seq.dest ∧
      t.seq.brake = some s.store.live.brakeTime ∧ brakeRel t = false := by
  obtain ⟨kseq, kctl, kgen, kmeas, kpeers, -, kinp, kstore, -⟩ := judged_keeps w
  have hcar := hw.carried
  have hseq : (judged w).seq = s.seq := kseq.trans hw.judged.seq
  have hctl : (judged w).ctl = s.ctl := kctl.trans hw.ctl_eq
  have hpeers : (judged w).peers = s.peers := kpeers.trans hw.judged.peers
  have hact : actOnFast vel (judged w) = endFastStop (judged w) := by
    simp [actOnFast, stoppingOf, hseq, ha, hk, hv]
  have hfired : (judged w).gen.fired = joinFired s.gen.fired (firedAt s x m point) := by rw [kgen, hw.fired]
  rw [hact]
  generalize judged w = z at *
  obtain ⟨f, hend, hf⟩ : ∃ f : Generator → Generator, endFastStop z = enterSetting s.seq.dest (z.onGen f) ∧
      ∀ g, path (f g) = path g ∧ (f g).fired = g.fired := by
    by_cases ht : s.seq.dest = .tripped
    · exact ⟨fun g => { g with homing := none }, by simp [endFastStop, hseq, ht], fun g => ⟨rfl, rfl⟩⟩
    · have hp := hd.resolve_left ht
      have he : endFastStop z = enterSetting s.seq.dest z := by simp [endFastStop, hseq, ht, hctl, hx, hp]
      exact ⟨id, he, fun g => ⟨rfl, rfl⟩⟩
  have hcarf : Carried s (z.onGen f) x m point vel s.store.live.emergency :=
    hcar.of_same rfl (hf z.gen).1 rfl rfl rfl
  have hb' : (z.onGen f).inp.brakeReleased = true := by rw [inp_of_base hcarf.base]; exact hb
  obtain ⟨e1, e2, e3, e4, e5, e6, e7, -, e9⟩ := finish_enterSetting (s := s) (x := x) (m := m) (point := point)
    (vel := vel) (decel := s.store.live.emergency) s.seq.dest hb'
  rw [hend]
  have hc := e9 hcarf
  refine ⟨⟨hc.taken, hc.moved, ?_, hc.latched, e5.trans hctl, e6.trans hpeers, hc.base⟩, e1, e2, ?_, e4⟩
  · rw [e7, onGen_gen, (hf z.gen).2, hfired]
  · rw [e3, store_of_base hcarf.base]

end stop

/-! ## FOLLOWING -/

/-- The step judged with FOLLOWING found: presence, latched set and recovery record changed, and the context's fate. -/
theorem Stepped.strays (h : Stepped s w x m point vel decel ctl) (d : SetDest) (c : CueControl) (q : Supervision) :
    let t := finish (enterStopping .fast d { w with sup := q, ctl := c })
    PeriodTaken s t ∧ MovedTo s t x m point vel decel ∧
      (isPresent t .following = q.present.contains .following) ∧ t.seq.axis = .stopping ∧ t.seq.stopKind = .fast ∧
      t.peers = s.peers ∧ base t = base s ∧ t.seq.dest = d ∧ t.sup.latched = q.latched ∧ t.ctl = c ∧
      t.sup.recovery = q.recovery.map fun r => { r with dwell := none } := by
  have hu : PeriodTaken s { w with sup := q, ctl := c } := periodTaken_of h.judged h.guard rfl rfl
  have hm : MovedTo s { w with sup := q, ctl := c } x m point vel decel := h.moved
  have hb : base { w with sup := q, ctl := c } = base s := h.judged.base
  have hp : ({ w with sup := q, ctl := c } : State).peers = s.peers := h.judged.peers
  have hc : ({ w with sup := q, ctl := c } : State).ctl = c := rfl
  have hq : ({ w with sup := q, ctl := c } : State).sup = q := rfl
  generalize ({ w with sup := q, ctl := c } : State) = u at hu hm hb hp hc hq
  have hstill : still (finish (enterStopping .fast d u)) = still u := by simp [enterStopping]
  have hpath : path (finish (enterStopping .fast d u)).gen = path u.gen := by simp [enterStopping]
  refine ⟨periodTaken_still hu hstill, movedTo_path hm hpath ?_, ?_, ?_, ?_, ?_, ?_, ?_, ?_, ?_, ?_⟩
  · simp [enterStopping, noteChange]
  · simp [enterStopping, isPresent, presenceIn, brakeRelIn, hq]
  · simp [enterStopping]
  · simp [enterStopping]
  · simp [enterStopping, hp]
  · simp [enterStopping, hb]
  · simp [enterStopping]
  · simp [enterStopping, hq]
  · simp [enterStopping, hc]
  · rw [finish_sup, enterStopping, onSeq_sup, setAxis_recovery_eq, hq]
    rfl

/-- FOLLOWING found anew in a MOVING period, OVERSPEED and ENCODER not (R139). -/
theorem judgeMotion_strayed (ho : overspeedNow w = false) (he : encoderNow w = false) (hb : brakeRel w = true)
    (hp : isPresent w .following = false) (hf : w.store.live.followLimit * 1000 < (errorNow w).natAbs) :
    judgeMotion w = respond .following (markPresent .following (markAbsent .encoder (markAbsent .overspeed w))) := by
  have hp' : isPresent (markAbsent .encoder (markAbsent .overspeed w)) .following = false := by
    simpa [isPresent, markAbsent] using hp
  have hd : decide ((markAbsent .encoder (markAbsent .overspeed w)).store.live.followLimit * 1000 <
      (errorNow (markAbsent .encoder (markAbsent .overspeed w))).natAbs) = true := decide_eq_true hf
  have hb' : brakeRel (markAbsent .encoder (markAbsent .overspeed w)) = true := hb
  have hj : judgeFollowing (markAbsent .encoder (markAbsent .overspeed w)) =
      respond .following (markPresent .following (markAbsent .encoder (markAbsent .overspeed w))) := by
    rw [judgeFollowing, if_pos hb', hd, evaluate_new hp']
  rw [judgeMotion_eq, ho, he]
  exact hj

theorem markPresent_shape (c : Condition) (u : State) : ∃ r, markPresent c u = { u with sup := { u.sup with
    present := insertCondition c u.sup.present
    recovery := r } } ∧ (u.sup.recovery = none → r = none) := ⟨_, rfl, fun h => by simp [h]⟩

theorem markAbsent_shape_none (c : Condition) (u : State) (h : u.sup.recovery = none) :
    (markAbsent c u).sup.recovery = none := by simp [markAbsent, dwellFollow, h]

/-- The state in which FOLLOWING is responded to (R139). -/
theorem strayed_shape (w : State) : ∃ p r,
    markPresent .following (markAbsent .encoder (markAbsent .overspeed w)) =
      { w with sup := { w.sup with present := p, recovery := r } } ∧ p.contains .following = true ∧
      (w.sup.recovery = none → r = none) := by
  obtain ⟨r1, h1⟩ := markAbsent_shape .overspeed w
  obtain ⟨r2, h2⟩ := markAbsent_shape .encoder (markAbsent .overspeed w)
  obtain ⟨r3, h3, hr⟩ := markPresent_shape .following (markAbsent .encoder (markAbsent .overspeed w))
  refine ⟨_, r3, h3.trans (by rw [h2, h1]), by simp, fun h => hr ?_⟩
  exact markAbsent_shape_none _ _ (markAbsent_shape_none _ _ h)

/-- The response under class LATCH on a MOVING axis (R19, R143). -/
theorem respond_following_latch {u : State} (hc : u.store.live.clsFollowing = .latch) (ha : u.seq.axis = .moving) :
    respond .following u = enterStopping .fast .tripped { u with
      sup := { u.sup with latched := insertCondition .following u.sup.latched }
      ctl := { u.ctl with ctx := u.ctl.ctx.map (faultedContext .following) } } := by
  have hcl : classOf u .following = .latch := hc
  have hax : (latch .following u).seq.axis = .moving := ha
  simp only [respond, hcl, latchDemand, Condition.isDrop, Bool.false_eq_true, if_false, fastLatch, hax]
  rfl

/-- The response under class RECOVER: the cue's next recovery begins with the stop (R145). -/
theorem respond_following_recover {u : State} (hc : u.store.live.clsFollowing = .recover) (ha : u.seq.axis = .moving)
    {y : CueContext} (hy : u.ctl.ctx = some y) (hr : u.sup.recovery = none) (hn : y.recoveries < 3) :
    respond .following u = enterStopping .fast .recovering { u with
      sup := { u.sup with recovery := some ⟨[.following], none, 0⟩ }
      ctl := { u.ctl with ctx := some { y with recoveries := y.recoveries + 1 } } } := by
  have hcl : classOf u .following = .recover := hc
  have hbeg : beginsRecovery u = true := by simp [beginsRecovery, ha]
  simp only [respond, hcl, recoverOccurrence, hy, hr, hbeg, hn, if_true, fastRecoverCue, onCtx, onCtl_seq, onSup_seq, ha]
  rw [State.onCtl, hy]
  rfl

end fast

end Sys2Proof.Machine


/-! PROOFS. The period of a running cue (O56), and the controlled stop with the STOP that asks for it (O39). -/

namespace Sys2Proof.Machine

section strayed
variable {s w t : State} {x : CueContext} {m : MoveInputs} {point : Position} {vel decel : Nat}

/-- A MOVING period whose error exceeds the following limit, up to its response (R139, logs 13, 14). -/
theorem period_strayed (h : Unreferencing s) (hc : CalmUnder m.vmax s) (hh : s.gen.homing = none)
    (hx : s.ctl.ctx = some x) (hm : x.move = some m) (ha : s.seq.axis = .moving) (hp : x.phase ≠ .starting)
    (hpres : isPresent s .following = false) :
    let p := periodStep s m (periodTarget s x m false)
    ¬FollowsWithin s (steppedPoint m s.gen.s p) (periodMeasured s) →
    ∃ w pr r, Stepped s w x m (steppedPoint m s.gen.s p) p.v m.decel { s.ctl with ctx := some (pacedContext s x) } ∧
      pr.contains .following = true ∧ (s.sup.recovery = none → r = none) ∧
      exec .profilePeriod s = .next (finish (actOn (.ran p.v p.arrived)
        (respond .following { w with sup := { w.sup with present := pr, recovery := r } }))) := by
  intro p hf
  have ht : targetPeriod s = true := by simp [targetPeriod, ha]
  have hmode : modeOf s = .run := by simp [modeOf, ha]
  obtain ⟨hw, hrep⟩ := stepped_run h hh ht hx hm hp hmode
  rw [stoppingOf_off (by simp [ha])] at hw hrep
  have hlim : speedLimit s = m.vmax := by simp [speedLimit, cueMove, hx, hm]
  have he := exec_period (watched_of h.1 (by simp [ha]))
  rw [hrep] at he
  generalize (runGenerator (beforeGenerator s)).1 = w at hw he
  have hj := hw.judged
  obtain ⟨pr, r, hshape, hpr, hr⟩ := strayed_shape w
  rw [judgeMotion_strayed, hshape] at he
  · exact ⟨w, pr, r, hw, hpr, fun hn => hr (by rw [hj.sup]; exact hn), he⟩
  · rw [hj.overspeed, hlim]; exact decide_eq_false (Nat.not_lt.2 hc.1)
  · rw [hj.encoder]; exact decide_eq_false (Nat.not_lt.2 hc.2)
  · simp [brakeRel, hj.seq, ha, brakeRelIn]
  · rw [isPresent, hj.sup]; exact hpres
  · rw [store_of_base hj.base, hw.error]; exact Nat.not_le.1 hf

/-- The report of a period that has begun a FAST stop changes nothing (log 14). -/
theorem actOn_stopped {vel : Nat} {a : Bool} {u : State} (d : SetDest) :
    actOn (.ran vel a) (enterStopping .fast d u) = enterStopping .fast d u := by
  simp [actOn, actOnRun]

end strayed

/-- O56, the FOLLOWING clauses. -/
theorem following_stops {s : State} {x : CueContext} {m : MoveInputs} (h : Unreferencing s) (hc : CalmUnder m.vmax s)
    (hh : s.gen.homing = none) (hx : s.ctl.ctx = some x) (hm : x.move = some m) (ha : s.seq.axis = .moving)
    (hrun : x.phase = .running) (hpres : isPresent s .following = false) :
    let p := periodStep s m (periodTarget s x m false)
    let point := steppedPoint m s.gen.s p
    ¬FollowsWithin s point (periodMeasured s) →
    let strayed (t : State) : Prop :=
      PeriodTaken s t ∧ MovedTo s t x m point p.v m.decel ∧ isPresent t .following = true ∧
        t.seq.axis = .stopping ∧ t.seq.stopKind = .fast ∧ t.peers = s.peers ∧ base t = base s
    (s.store.live.clsFollowing = .latch → Answers (exec .profilePeriod s) fun t => strayed t ∧ t.seq.dest = .tripped ∧
      t.sup.latched = insertCondition .following s.sup.latched ∧
      t.ctl = { s.ctl with ctx := some (faultedContext .following (pacedContext s x)) }) ∧
    (s.store.live.clsFollowing = .recover → s.sup.recovery = none → x.recoveries < 3 →
      Answers (exec .profilePeriod s) fun t => strayed t ∧ t.seq.dest = .recovering ∧
        t.sup.latched = s.sup.latched ∧ t.sup.recovery = some { conds := [.following], dwell := none, wait := 0 } ∧
        t.ctl = { s.ctl with ctx := some { pacedContext s x with recoveries := x.recoveries + 1 } }) := by
  intro p point hf strayed
  obtain ⟨w, pr, r, hw, hpr, hr, he⟩ := period_strayed h hc hh hx hm ha (by simp [hrun]) hpres hf
  have hstore : w.store = s.store := store_of_base hw.judged.base
  have hseq : w.seq = s.seq := hw.judged.seq
  have hsup : w.sup = s.sup := hw.judged.sup
  have hctx : w.ctl.ctx = some (pacedContext s x) := by rw [hw.ctl_eq]
  refine ⟨fun hcls => ?_, fun hcls hrec hn => ?_⟩
  · rw [he, respond_following_latch (by rw [← hcls, ← hstore]) (by rw [← ha, ← hseq]), actOn_stopped, answers_next]
    obtain ⟨h1, h2, h3, h4, h5, h6, h7, h8, h9, h10, -⟩ := hw.strays .tripped
      { w.ctl with ctx := w.ctl.ctx.map (faultedContext .following) }
      { w.sup with present := pr, latched := insertCondition .following w.sup.latched, recovery := r }
    refine ⟨⟨h1, h2, h3.trans hpr, h4, h5, h6, h7⟩, h8, h9.trans (by rw [hsup]), h10.trans ?_⟩
    rw [hctx, hw.ctl_eq]; rfl
  · rw [he, respond_following_recover (u := { w with sup := { w.sup with present := pr, recovery := r } })
      (y := pacedContext s x) (by rw [← hcls, ← hstore]) (by rw [← ha, ← hseq]) hctx
      (hr hrec) hn, actOn_stopped, answers_next]
    obtain ⟨h1, h2, h3, h4, h5, h6, h7, h8, h9, h10, h11⟩ := hw.strays .recovering
      { w.ctl with ctx := some { pacedContext s x with recoveries := (pacedContext s x).recoveries + 1 } }
      { w.sup with present := pr, recovery := some ⟨[.following], none, 0⟩ }
    refine ⟨⟨h1, h2, h3.trans hpr, h4, h5, h6, h7⟩, h8, h9.trans (by rw [hsup]), h11, h10.trans ?_⟩
    rw [hw.ctl_eq]; rfl

theorem fastPeriod_le (v e rt : Nat) : (fastPeriod v e rt).v ≤ v - e := by
  unfold fastPeriod
  split
  · exact Nat.zero_le _
  · exact le_refl _

/-- Settles O56: the RUN step by its three reports, the FAST step by its two, FOLLOWING by its two classes. -/
theorem periodRunsMove : Obligations.PeriodRunsMove := by
  intro s x m hs hu hx hm hh hl hc
  refine ⟨fun ha hrun hf => ?_, fun ha hk hp hf => ⟨fastPeriod_le _ _ _, ?_⟩,
    fun ha hrun hf hpres => following_stops hu hc hh hx hm ha hrun hpres hf⟩
  · have ht : targetPeriod s = true := by rcases ha with ha | ha <;> simp [targetPeriod, ha]
    have hmode : modeOf s = .run := by rcases ha with ha | ha <;> simp [modeOf, ha]
    have hno : stoppingOf s .controlled = false := stoppingOf_off (by rcases ha with ha | ha <;> simp [ha])
    have hperiod := period_ran hu hc hh ht hx hm (by simp [hrun]) hmode
    rw [hno] at hperiod
    obtain ⟨w, hw, he⟩ := hperiod hf
    rw [he]
    simp only [answers_next]
    refine ⟨fun harr hv => ?_, fun harr hv => ?_, fun harr hnone hpend hb => ?_⟩
    · rw [harr]; exact report_moving hs hx hl ha hw hv
    · rw [harr]; exact report_held hs hx hl ha hw hv
    · rw [harr]; exact report_arrived hl ha hw hnone hpend hb
  · have ht : targetPeriod s = false := by simp [targetPeriod, stoppingOf, ha, hk]
    have hmode : modeOf s = .fast := by simp [modeOf, ha, hk]
    obtain ⟨w, hw, he⟩ := period_slowed hu hc hh ht hx hm hp hmode hf
    rw [he]
    simp only [answers_next]
    exact ⟨fun hv => report_slowed hw hs hv, fun hv hb hd => report_fastEnded hx ha hk hw hv hb hd⟩

end Sys2Proof.Machine


/-! PROOFS. STOP, and the controlled stop that runs down and ends its cue (O39; R14, R16, R35, R72 to R74). -/

namespace Sys2Proof.Machine

section stop
variable {s w t : State} {x : CueContext} {m : MoveInputs} {point : Position} {vel decel : Nat}

/-! ## STOP by the axis state -/

theorem endedBy_finish_endCue (hs : Settled s) (hx : s.ctl.ctx = some x) (ha : s.seq.axis ≠ .parked) (f : Sequencer → Sequencer)
    (hf : ∀ q, (f q).axis = q.axis ∧ (f q).rest = q.rest) :
    let t := finish ((endCue .abandoned s).onSeq f)
    EndedBy .abandoned x s t ∧ t.seq = f s.seq := by
  rw [finish_ended hs ha f hf]
  exact ⟨(endedBy_endCue hx rfl).onSeq f, by rw [onSeq_seq, endCue_seq]⟩

/-- WAKING with the phase STARTING: the wake goes on for nothing (R72). -/
theorem stop_waking (hs : Settled s) (hx : s.ctl.ctx = some x) (hp : x.phase ≠ .ending) (ha : s.seq.axis = .waking) :
    let t := finish (controlledEnd .abandoned s)
    EndedBy .abandoned x s t ∧ t.seq = { s.seq with startReq := .none } := by
  have he : controlledEnd .abandoned s = (endCue .abandoned s).onSeq fun q => { q with startReq := .none } := by
    rw [controlledEnd_endable hx hp]; simp [controlledPath, ha]
  rw [he]
  exact endedBy_finish_endCue hs hx (by simp [ha]) _ fun _ => ⟨rfl, rfl⟩

/-- SETTING toward SUSPENDED or RECOVERING: the destination becomes PARKED (R16, R72). -/
theorem stop_setting (hs : Settled s) (hx : s.ctl.ctx = some x) (hp : x.phase ≠ .ending) (ha : s.seq.axis = .setting)
    (hd : s.seq.dest = .suspended ∨ s.seq.dest = .recovering) :
    let t := finish (controlledEnd .abandoned s)
    EndedBy .abandoned x s t ∧ t.seq = { s.seq with dest := .parked } := by
  have he : controlledEnd .abandoned s = (endCue .abandoned s).onSeq fun q => { q with dest := .parked } := by
    rw [controlledEnd_endable hx hp]; simp [controlledPath, ha, hd]
  rw [he]
  exact endedBy_finish_endCue hs hx (by simp [ha]) _ fun _ => ⟨rfl, rfl⟩

/-- RELEASING and HELD: the cue ends at once and the brake is set toward PARKED (R72). -/
theorem stop_braking (hx : s.ctl.ctx = some x) (hp : x.phase ≠ .ending) (ha : s.seq.axis = .releasing ∨ s.seq.axis = .held) :
    let t := finish (controlledEnd .abandoned s)
    EndedBy .abandoned x s t ∧ brakeRel t = false ∧ t.seq.startReq = .none ∧ t.seq.hold = none ∧
      (if s.inp.brakeReleased then
        t.seq.axis = .setting ∧ t.seq.dest = .parked ∧ t.seq.brake = some s.store.live.brakeTime
      else t.seq.axis = .parked ∧ t.seq.brake = none) := by
  have he : controlledEnd .abandoned s = enterSetting .parked (endCue .abandoned s) := by
    rw [controlledEnd_endable hx hp]
    rcases ha with ha | ha <;> simp [controlledPath, ha]
  rw [he]
  have hend := endedBy_endCue (o := .abandoned) hx rfl
  have hset := enterSetting_parked (endCue .abandoned s)
  have hb : base (endCue .abandoned s) = base s := hend.1.2.2.1
  rw [inp_of_base hb, store_of_base hb] at hset
  exact ⟨hend.enterSetting.finish, hset⟩

/-- SUSPENDED and RECOVERING: the cue ends at once and the axis is PARKED (R72). -/
theorem stop_resting (hx : s.ctl.ctx = some x) (hp : x.phase ≠ .ending)
    (ha : s.seq.axis = .suspended ∨ s.seq.axis = .recovering) :
    let t := finish (controlledEnd .abandoned s)
    EndedBy .abandoned x s t ∧ t.seq.axis = .parked ∧ t.meas.pendingDuty = 2048 := by
  have hend := endedBy_endCue (o := .abandoned) hx rfl
  rw [controlledEnd_resting hx hp ha]
  refine ⟨(hend.setAxis (by decide)).finish, by simp, ?_⟩
  rw [finish_meas]
  exact (setAxis_zeroDuty (by decide) _).1

/-! ## The controlled stop -/

/-- Toward a velocity target of 0 the velocity does not rise (R30, R35). -/
theorem runPeriod_stopping_le (v a d rt re : Nat) : (runPeriod v 0 a d rt re).v ≤ v := by
  have hmem := chooseVelocity_mem v 0 a d (min rt re)
  have hle : (chooseVelocity v 0 a d (min rt re)).1 ≤ v := by
    simp only [candidates, Nat.not_lt_zero, if_false, List.nil_append, List.mem_append] at hmem
    rcases hmem with (h | h) | h
    · split at h <;> simp at h; omega
    · split at h <;> simp at h; omega
    · simp at h; omega
  unfold runPeriod
  dsimp only
  split
  · exact Nat.zero_le _
  · split
    · exact Nat.zero_le _
    · exact hle

theorem periodStep_stopping (ha : s.seq.axis = .stopping) (hk : s.seq.stopKind = .controlled) :
    periodStep s m (periodTarget s x m (stoppingOf s .controlled)) = periodStep s m 0 := by
  have : stoppingOf s .controlled = true := by simp [stoppingOf, ha, hk]
  rw [this, periodTarget_stopping]

section controlled
variable (hw : Stepped s w x m point vel m.decel { s.ctl with ctx := some (pacedContext s x) })
  (ha : s.seq.axis = .stopping) (hk : s.seq.stopKind = .controlled)
include hw ha hk

/-- The stop runs on (R14). -/
theorem report_stopping (hs : Settled s) (hx : s.ctl.ctx = some x) (hv : vel ≠ 0) :
    let t := finish (actOnRun vel false (judged w))
    Carried s t x m point vel m.decel ∧ t.seq = s.seq ∧ t.ctl = { s.ctl with ctx := some (pacedContext s x) } ∧
      t.peers = s.peers := by
  have hseq : (judged w).seq = s.seq := (judged_keeps w).1.trans hw.judged.seq
  obtain ⟨hcar, h1, h2, h3, -⟩ := hw.goesOn hs (by simp [hx])
  have he : actOnRun vel false (judged w) = judged w := by simp [actOnRun, hseq, ha, hk, hv]
  rw [he]
  exact ⟨hcar, h1, h2, h3⟩

/-- The stop ends at velocity 0 or at the target: the cue ends with its reason and the brake is set (R14, R73). -/
theorem report_stopped {a : Bool} (hend : a = true ∨ vel = 0) (hp : pendingCues s = [])
    (hnone : ∀ c ∈ s.ctl.armed, c.trigger ≠ some (.delaying 0)) (hb : s.inp.brakeReleased = true) :
    let t := finish (actOnRun vel a (judged w))
    Carried s t x m point vel m.decel ∧ t.seq.axis = .setting ∧ t.seq.dest = s.seq.dest ∧
      t.seq.brake = some s.store.live.brakeTime ∧ brakeRel t = false ∧
      t.ctl = { s.ctl with
        ctx := none
        lastEvent := some (.ended x.record.cue.number (reasonOf x)
          (distance point.toNat (x.record.cue.target * 1000000) / 1000000)) } ∧
      t.peers = releasePeers x.record.cue.number s.peers := by
  obtain ⟨kseq, kctl, -, -, kpeers, -⟩ := judged_keeps w
  have hseq : (judged w).seq = s.seq := kseq.trans hw.judged.seq
  have hctl : (judged w).ctl = { s.ctl with ctx := some (pacedContext s x) } := kctl.trans hw.ctl_eq
  have hpeers : (judged w).peers = s.peers := kpeers.trans hw.judged.peers
  have hcar := hw.carried
  have hpoint : (judged w).gen.s = point := hcar.moved.1
  have hact : actOnRun vel a (judged w) = endControlledStop (judged w) := by
    rcases hend with h | h <;> simp [actOnRun, hseq, ha, hk, h]
  rw [hact]
  generalize judged w = z at *
  have hz : z.ctl.ctx = some (pacedContext s x) := by rw [hctl]
  have hpz : pendingCues z = [] := by rw [← hp, pendingCues, hctl]; rfl
  have hquiet := endCue_quiet (o := reasonOf (pacedContext s x)) hz hpz
  have hdrain : drainDelays (endCue (reasonOf (pacedContext s x)) z) = endCue (reasonOf (pacedContext s x)) z := by
    refine drainDelays_none fun c hc => ?_
    rw [hquiet, removeContext_ctl, hctl] at hc
    exact hnone c hc
  have hstop : endControlledStop z = enterSetting s.seq.dest (endCue (reasonOf (pacedContext s x)) z) := by
    simp only [endControlledStop, hz, hseq, hdrain]
  have hcare : Carried s (endCue (reasonOf (pacedContext s x)) z) x m point vel m.decel := by
    rw [hquiet]; exact hcar.removed _ _ _
  have hb' : (endCue (reasonOf (pacedContext s x)) z).inp.brakeReleased = true := by
    rw [inp_of_base hcare.base]; exact hb
  obtain ⟨e1, e2, e3, e4, e5, e6, -, -, e9⟩ := finish_enterSetting (s := s) (x := x) (m := m) (point := point)
    (vel := vel) (decel := m.decel) s.seq.dest hb'
  rw [hstop]
  refine ⟨e9 hcare, e1, e2, by rw [e3, store_of_base hcare.base], e4, ?_, ?_⟩
  · rw [e5, hquiet]
    simp only [removeContext_ctl, hctl, remainingMm, hpoint]
    rfl
  · rw [e6, hquiet, removeContext_peers, hpeers]; rfl

end controlled

end stop

/-- Settles O39: a STOP by the axis state, then the periods of the controlled stop it asks for. -/
theorem stopEndsCue : Obligations.StopEndsCue := by
  intro s h set hs
  refine ⟨fun ht => ⟨fun x hx hp => ?_, fun hidle => exec_stop_idle hidle⟩,
    fun x hx m hm hu hc ha hk hend hh => ?_⟩
  · rw [exec_stop ht hx hp]
    simp only [answers_next]
    refine ⟨fun ha => ?_, fun ha _ => ?_, fun ha _ => stop_waking hs hx hp ha, fun ha => stop_braking hx hp ha,
      fun ha => stop_resting hx hp ha, fun ha hd => stop_setting hs hx hp ha hd⟩
    · obtain ⟨hseq, hctl, hlat, hpeers, hguard, hbase, hstill, hpath, -⟩ :=
        (controlledEnd_stopsFor (o := .abandoned) hx hp ha).finish
      exact ⟨⟨⟨hguard, hlat, hbase, hstill, hpath⟩, hctl, hpeers⟩, hseq⟩
    · rw [stop_fast hs hx hp ha]
      exact ⟨⟨⟨rfl, rfl, rfl, rfl, rfl⟩, rfl, rfl⟩, rfl⟩
  · intro p point hf stopping
    have hx' : s.ctl.ctx = some x := hx
    have hm' : x.move = some m := hm
    have ht : targetPeriod s = true := by simp [targetPeriod, stoppingOf, ha, hk]
    have hmode : modeOf s = .run := by simp [modeOf, ha, hk]
    have hperiod := period_ran hu hc hh ht hx' hm' (by simp [hend]) hmode
    rw [periodStep_stopping ha hk] at hperiod
    obtain ⟨w, hw, he⟩ := hperiod hf
    rw [he]
    simp only [answers_next]
    refine ⟨runPeriod_stopping_le _ _ _ _ _, fun harr hv => ?_, fun hor hpend hnone hb => ?_⟩
    · rw [show (periodStep s m 0).arrived = false from harr]
      obtain ⟨hcar, h1, h2, h3⟩ := report_stopping hw ha hk hs hx' hv
      exact ⟨⟨hcar.taken, hcar.moved, hcar.latched, hcar.base⟩, h1, h2, h3⟩
    · obtain ⟨hcar, h1, h2, h3, h4, h5, h6⟩ := report_stopped hw ha hk hor hpend hnone hb
      exact ⟨⟨hcar.taken, hcar.moved, hcar.latched, hcar.base⟩, h1, h2, h3, h4, h5, h6⟩

end Sys2Proof.Machine


/-! PROOFS. A cue released again: at the end of the dwell and from SUSPENDED (O41; R8, R12, R34, R41, R146). -/

namespace Sys2Proof.Machine

section released
variable {s w z t : State} {x y : CueContext} {m : MoveInputs}

/-- What a release with the move kept leaves, relative to the state it begins in (R8, R20, R25). -/
structure Rereleased (z t : State) (y : CueContext) (m : MoveInputs) : Prop where
  axis : t.seq.axis = .releasing
  startReq : t.seq.startReq = .none
  brake : t.seq.brake = some z.store.live.brakeTime
  brakeRel : brakeRel t = true
  driveEn : driveEn t = true
  latched : t.sup.latched = z.sup.latched
  recovery : z.sup.recovery = none → t.sup.recovery = none
  point : t.gen.s = retakeFor m z.meas.measured
  vel : t.gen.v = 0
  fired : t.gen.fired = joinFired z.gen.fired (firedAt z y m (retakeFor m z.meas.measured))
  marks : t.line.marks = ((firedAt z y m (retakeFor m z.meas.measured)).foldl (queueMark y.record.cue.number) z).line.marks
  progress : t.gen.progress = z.gen.progress
  stopPoint : t.gen.stopPoint = z.gen.stopPoint
  pub : t.gen.pub = z.gen.pub
  duty : t.meas.pendingDuty = z.meas.pendingDuty
  ctl : t.ctl = z.ctl
  guard : t.guard = z.guard
  peers : t.peers = z.peers
  still : still t = still z
  base : base t = base z

theorem rereleased (hy : z.ctl.ctx = some y) (hm : y.move = some m) (hb : z.inp.brakeReleased = false)
    (hl : z.inp.loopOpen = false) (hno : ∀ d ∈ z.sup.present, classOf z d ≠ .recover) :
    Rereleased z (finish (beginRelease .none z)) y m := by
  have he : beginRelease .none z = releasing .none z := by rw [beginRelease_quiet hno, hb]; rfl
  have hr := retake_moving z y m hy hm
  have hz : dutyAtZero (((retake z).onSeq (seqIn .releasing)).onSup (presenceIn .releasing)) = false := by
    simp [dutyAtZero, Machine.driveEn, hl]
  have hduty := (setAxis_duty .releasing (retake z)).1
  rw [hz] at hduty
  have hd : Machine.driveEn (releasing .none z) = true :=
    driveEn_of_axis (by simp [releasing, hl]) (by simp [releasing]) (by simp [releasing]) (by simp [releasing])
  rw [he]
  refine ⟨by simp [releasing], by simp [releasing], by simp [releasing], by simp [releasing, Machine.brakeRel, brakeRelIn],
    by rw [finish_driveEn, hd], by simp [releasing], fun hn => ?_, ?_, ?_, ?_, ?_, ?_, ?_, ?_, ?_, ?_, ?_, ?_, ?_, ?_⟩
  · rw [finish_sup, releasing, onSeq_sup]
    exact setAxis_recovery _ _ (by rw [retake_sup]; exact hn)
  · rw [finish_gen_s, releasing, onSeq_gen, setAxis_gen, hr]
  · rw [finish_gen_v, releasing, onSeq_gen, setAxis_gen, hr]
  · rw [finish_gen_fired, releasing, onSeq_gen, setAxis_gen, hr]; rfl
  · rw [finish_marks, releasing, onSeq_line, setAxis_line, hr]; rfl
  · rw [finish_gen_progress, releasing, onSeq_gen, setAxis_gen, hr]
  · rw [finish_gen_stopPoint, releasing, onSeq_gen, setAxis_gen, hr]
  · rw [finish_gen_pub, releasing, onSeq_gen, setAxis_gen, hr]
  · rw [finish_meas, releasing, onSeq_meas]
    exact hduty.trans (by rw [if_neg Bool.false_ne_true, hr])
  · rw [finish_ctl, releasing, onSeq_ctl, setAxis_ctl, hr]; rfl
  · rw [finish_guard, releasing, onSeq_guard, setAxis_guard, hr]
  · rw [finish_peers, releasing, onSeq_peers, setAxis_peers, hr]
  · simp [releasing]
  · simp [releasing]

/-! ## The dwell -/

theorem exec_dwellExpiry {r : Recovery} (ha : s.seq.axis = .recovering) (hr : s.sup.recovery = some r)
    (hd : r.dwell.isSome = true) (hx : s.ctl.ctx = some x) (hp : x.phase = .running) :
    exec .dwellExpiry s = .next (finish (beginRelease .none (s.onSup fun p => { p with recovery := none }))) := by
  have hq : reReleaseRequest s = .none := by simp [reReleaseRequest, inPhase, hx, hp]
  rw [← hq]
  exact if_pos (by simp [dwellRuns, ha, hr, hd])

/-! ## A period of SUSPENDED -/

theorem joinFired_again (f : List Nat) (n : List Nat) : joinFired (joinFired f []) n = joinFired f n := by
  refine List.filter_congr fun i hi => ?_
  have : (joinFired f []).contains i = f.contains i := by
    rw [Bool.eq_iff_iff]
    simp only [joinFired, List.contains_iff_mem, List.mem_filter, List.contains_nil, Bool.or_false]
    exact ⟨fun h => h.2, fun h => ⟨hi, h⟩⟩
  rw [this]

theorem firedBy_again (d : Dir) (old new : Position) (marks f : List Nat) :
    firedBy d old new marks (joinFired f []) = firedBy d old new marks f := by
  refine List.filter_congr fun i hi => ?_
  have : (joinFired f []).contains i = f.contains i := by
    rw [Bool.eq_iff_iff]
    simp only [joinFired, List.contains_iff_mem, List.mem_filter, List.contains_nil, Bool.or_false]
    exact ⟨fun h => h.2, fun h => ⟨hi, h⟩⟩
  rw [this]

/-- What the speed tests of a SUSPENDED period judge (R24, R39, R40, R44). -/
structure Paused (s w : State) (x : CueContext) (m : MoveInputs) : Prop where
  judged : Judged s w
  point : w.gen.s = s.gen.s
  vel : w.gen.v = 0
  stopPoint : w.gen.stopPoint = s.gen.s
  pub : w.gen.pub = ⟨s.gen.s.toNat / 1000, 0, s.gen.s.toNat / 1000⟩
  progress : w.gen.progress = max s.gen.progress (progressValue m s.gen.s)
  fired : w.gen.fired = joinFired s.gen.fired []
  line : w.line = s.line
  duty : w.meas.pendingDuty = 2048
  guard : w.guard = (sensed s).guard
  ctl : w.ctl = { s.ctl with ctx := some (pacedContext s x) }

theorem generate_paused (hm : x.move = some m) (ha : s.seq.axis = .suspended) :
    generate (coupled s x) = ((coupled s x).onGen fun g => { g with s := s.gen.s, v := 0 },
      if resumeAllowed (periodTarget s x m false) m.accel (remainingTo m s.gen.s) (periodRoom s m) = true
      then .resumes else .quiet) := by
  have hmode : modeOf (coupled s x) = .hold := by
    have : (coupled s x).seq.axis = .suspended := ha
    simp [modeOf, this]
  have hno : stoppingOf s .controlled = false := stoppingOf_off (by simp [ha])
  have hres : resumeTest (coupled s x) =
      resumeAllowed (periodTarget s x m false) m.accel (remainingTo m s.gen.s) (periodRoom s m) := by
    have hv := velocityTarget_coupled (s := s) (x := x) m
    rw [hno] at hv
    have hmv : (pacedContext s x).move = some m := hm
    rw [← hv]
    simp only [resumeTest, coupled, onCtl_ctl, hmv]
    rfl
  have hax : (coupled s x).seq.axis = .suspended := ha
  simp only [generate, hmode, holdMode, hax, hres, true_and]
  rfl

theorem paused (h : Unreferencing s) (hh : s.gen.homing = none) (hx : s.ctl.ctx = some x) (hm : x.move = some m)
    (hp : x.phase = .running) (ha : s.seq.axis = .suspended) :
    Paused s (runGenerator (beforeGenerator s)).1 x m ∧ (runGenerator (beforeGenerator s)).2 =
      if resumeAllowed (periodTarget s x m false) m.accel (remainingTo m s.gen.s) (periodRoom s m) = true
      then .resumes else .quiet := by
  have hj := judged_of h
  have hb : beforeGenerator s = coupled s x := beforeGenerator_coupled h hh (by simp [targetPeriod, ha]) hx
  rw [hb] at hj ⊢
  have hgen := generate_paused hm ha
  have hmode : modeOf (coupled s x) = .hold := by
    have : (coupled s x).seq.axis = .suspended := ha
    simp [modeOf, this]
  obtain ⟨h1, h2, h3, h4, h5, h6, h7, h8⟩ := runGenerator_rested hgen (.inr hmode)
  have hx' : ((coupled s x).onGen fun g => { g with s := s.gen.s, v := 0 }).ctl.ctx = some (pacedContext s x) := rfl
  have hm' : (pacedContext s x).move = some m := hm
  have hp' : (pacedContext s x).phase ≠ .starting := by
    have : (pacedContext s x).phase = .running := hp
    simp [this]
  obtain ⟨hf, hl⟩ := marked_moving (s.gen.s) hx' hm' hp'
  have hprog := updateProgress_moving hx' hm' hp'
  have hrun := runGenerator_eq hgen
  refine ⟨⟨hj, h1, h2, h3, h4, ?_, ?_, ?_, ?_, h6, h7⟩, h8⟩
  · rw [hrun, hprog]; rfl
  · rw [hrun]
    refine hf.trans ?_
    rw [onGen_gen, firedBy_same]; rfl
  · rw [hrun]
    refine hl.trans ?_
    rw [onGen_gen, firedBy_same]; rfl
  · have : (coupled s x).seq.axis = .suspended := ha
    simp [h5, this]

theorem resumeAllowed_iff {target accel rt re : Nat} : resumeAllowed target accel rt re = true ↔
    0 < target ∧ (accel ≤ min rt re ∨ (0 < rt ∧ rt ≤ accel ∧ rt ≤ re)) := by
  simp only [resumeAllowed, creepAllowed, Bool.or_eq_true, Bool.and_eq_true, decide_eq_true_eq]
  constructor
  · rintro (⟨h, ha⟩ | ⟨⟨⟨h1, h2⟩, h3⟩, h⟩)
    · exact ⟨h, .inl ha⟩
    · exact ⟨h, .inr ⟨h1, h2, h3⟩⟩
  · rintro ⟨h, ha | ⟨h1, h2, h3⟩⟩
    · exact .inl ⟨h, ha⟩
    · exact .inr ⟨⟨⟨h1, h2⟩, h3⟩, h⟩

/-- The state a SUSPENDED period leaves before its report. -/
theorem Paused.taken (h : Paused s w x m) : PeriodTaken s (Machine.judged w) ∧
    (Machine.judged w).gen.stopPoint = s.gen.s ∧
    (Machine.judged w).gen.pub = ⟨s.gen.s.toNat / 1000, 0, s.gen.s.toNat / 1000⟩ ∧
    (Machine.judged w).gen.progress = max s.gen.progress (progressValue m s.gen.s) ∧
    (Machine.judged w).meas.pendingDuty = 2048 ∧
    (Machine.judged w).ctl = { s.ctl with ctx := some (pacedContext s x) } := by
  obtain ⟨r, hr⟩ := judged_shape w
  rw [hr]
  exact ⟨periodTaken_of h.judged h.guard rfl rfl, h.stopPoint, h.pub, h.progress, h.duty, h.ctl⟩

/-- The marks a release from SUSPENDED fires are those of the state before the period (R41). -/
theorem Paused.firedAt (h : Paused s w x m) (point : Position) :
    Machine.firedAt (Machine.judged w) (pacedContext s x) m point = Machine.firedAt s x m point ∧
      joinFired (Machine.judged w).gen.fired (Machine.firedAt s x m point) =
        joinFired s.gen.fired (Machine.firedAt s x m point) := by
  obtain ⟨-, -, kgen, -⟩ := judged_keeps w
  refine ⟨?_, ?_⟩
  · rw [Machine.firedAt, kgen, h.point, h.fired, firedBy_again]; rfl
  · rw [kgen, h.fired, joinFired_again]

end released

/-- Settles O41: both releases are `rereleased`, of the dwell's end and of the state a SUSPENDED period leaves. -/
theorem dwellReleasesAgain : Obligations.DwellReleasesAgain := by
  intro s x m hs hx hp hm hb hl
  refine ⟨fun ha hno r hr hd => ?_, fun ha hu hc hh => ?_⟩
  · rw [exec_dwellExpiry ha hr hd hx hp, answers_next]
    have h := rereleased (z := s.onSup fun p => { p with recovery := none }) hx hm hb hl hno
    exact ⟨⟨h.axis, h.startReq, h.brake, h.brakeRel, h.driveEn, h.latched, h.point, h.vel, h.fired,
      h.marks.trans (congrArg _ (foldl_queueMark_line _ _ _ _ rfl)), h.peers,
      h.base⟩, h.recovery rfl, h.ctl, h.progress, h.pub, h.guard, h.still⟩
  · intro target rt resumes held
    obtain ⟨hw, hrep⟩ := paused hu hh hx hm hp ha
    have hlim : speedLimit s = m.vmax := by simp [speedLimit, cueMove, hx, hm]
    have he := period_calm hu (by simp [ha]) (by rw [hlim]; exact hc) (fun h => by simp [brakeRel, ha, brakeRelIn] at h)
    generalize (runGenerator (beforeGenerator s)).1 = w at hw he
    obtain ⟨kseq, kctl, kgen, kmeas, kpeers, kline, kinp, kstore, -⟩ := judged_keeps w
    obtain ⟨r, hshape⟩ := judged_shape w
    have hbase : base (judged w) = base s := by rw [hshape]; exact hw.judged.base
    have hseq : (judged w).seq = s.seq := kseq.trans hw.judged.seq
    have hpeers : (judged w).peers = s.peers := kpeers.trans hw.judged.peers
    have hlat : (judged w).sup.latched = s.sup.latched := by
      rw [hshape]; show w.sup.latched = _; rw [hw.judged.sup]
    obtain ⟨t1, t2, t3, t4, t5, t6⟩ := hw.taken
    refine ⟨fun hno => ?_, fun hyes hnorec => ?_⟩
    · rw [hrep, if_neg (fun h => hno (resumeAllowed_iff.1 h))] at he
      have hfin : finish (actOn .quiet (judged w)) = judged w := finish_judged hs hw.judged (by rw [hw.ctl, hx]; rfl)
      rw [he, hfin, answers_next]
      exact ⟨⟨t1, t2, t3, t4, t5, t6⟩, hseq, by rw [kgen, hw.point], by rw [kgen, hw.vel], hlat, by rw [kline, hw.line],
        hpeers, hbase⟩
    · rw [hrep, if_pos (resumeAllowed_iff.2 hyes)] at he
      have hact : actOn .resumes (judged w) = beginRelease .none (judged w) := by simp [actOn, hseq, ha]
      have hctx : (judged w).ctl.ctx = some (pacedContext s x) := by rw [t6]
      have hpresent : ∀ d ∈ (judged w).sup.present, classOf (judged w) d ≠ .recover := by
        intro d hd
        have hd' : d ∈ s.sup.present ∧ d ≠ .following := by
          rw [hshape] at hd
          simp only [mem_removeCondition] at hd
          rw [← hw.judged.sup]
          exact ⟨hd.1.1.1, hd.2⟩
        rw [classOf, store_of_base hbase]
        exact hnorec d hd'.1 hd'.2
      have h := rereleased (m := m) hctx hm (by rw [inp_of_base hbase]; exact hb) (by rw [inp_of_base hbase]; exact hl)
        hpresent
      have hmeas : (judged w).meas.measured = periodMeasured s := by rw [kmeas, hw.judged.measured]
      obtain ⟨f1, f2⟩ := hw.firedAt (retakeFor m (periodMeasured s))
      have hpoint := h.point
      have hfired := h.fired
      have hmarks := h.marks
      rw [hmeas, f1] at hfired hmarks
      rw [f2] at hfired
      rw [hmeas] at hpoint
      have hline : (judged w).line = s.line := kline.trans hw.line
      rw [he, hact, answers_next]
      refine ⟨⟨periodTaken_still t1 h.still, h.stopPoint.trans t2, h.pub.trans t3, h.progress.trans t4, h.duty.trans t5,
        h.ctl.trans t6⟩, h.axis, h.startReq, h.brake.trans (by rw [store_of_base hbase]), h.brakeRel, h.driveEn,
        h.latched.trans hlat, hpoint, h.vel, hfired, hmarks.trans ?_, h.peers.trans hpeers, h.base.trans hbase⟩
      exact congrArg _ (foldl_queueMark_line _ _ _ _ hline)

end Sys2Proof.Machine


/-! PROOFS. HOME and the periods of the homing move (O44; R6, R8, R37, R38, R120, R125, R127 to R129). -/

namespace Sys2Proof.Machine

section home
variable {s u w z t : State} {h : Hdr}

/-! ## HOME -/

theorem exec_home_refused {r : ReplyResult} (ht : requestTaken s h = true) (hr : homeRefusal s = some r) :
    exec (.home h) s = .next (answer h .home r 0 s) := by
  simp [exec, execHome, ht, hr]

theorem exec_home_accepted (ht : requestTaken s h = true) (hr : homeRefusal s = none) :
    exec (.home h) s = .next (finish (acceptHome h s)) := by
  simp [exec, execHome, ht, hr]

theorem exec_home_broadcast (h0 : h.addressee = 0) : exec (.home h) s = .next s := by
  refine if_neg ?_
  cases hc : consoleFrameTaken s h with
  | true => simp [requestTaken_broadcast hc h0]
  | false => simp [requestTaken, hc]

/-- A HOME accepted, before the sequencer is asked: the answer queued, the request recorded (R125). -/
def homeAsked (h : Hdr) (s : State) : State :=
  (answer h .home .done 0 s).onCtl fun c => { c with homing := some ⟨false, false, false⟩ }

/-- From PARKED the release begins at once (R8, R125). -/
theorem acceptHome_parked (ha : s.seq.axis = .parked) (hx : s.ctl.ctx = none) (hl : s.inp.loopOpen = false)
    (hb : s.inp.brakeReleased = false) (hno : ∀ d ∈ s.sup.present, classOf s d ≠ .recover) :
    let t := finish (acceptHome h s)
    t.seq.axis = .releasing ∧ t.seq.startReq = .home ∧ t.seq.brake = some s.store.live.brakeTime ∧
      t.seq.rest = none ∧ brakeRel t = true ∧ driveEn t = true ∧ t.gen.s = s.meas.measured ∧ t.gen.v = 0 ∧
      t.line.replies = s.line.replies ++ [⟨0, none, .reply ⟨h.sender, .home, h.seq, .done, 0⟩⟩] ∧
      t.ctl = { s.ctl with homing := some ⟨false, false, false⟩ } ∧
      t.peers = s.peers ∧ t.guard = s.guard ∧ senses t.meas = senses s.meas ∧ base t = base s := by
  have hx' : ∀ x ∈ (homeAsked h s).ctl.ctx, x.move = none := fun x hm => by
    have : (homeAsked h s).ctl.ctx = none := hx
    simp [this] at hm
  obtain ⟨r1, r2, r3, r4, r5⟩ := releasing_waiting (req := .home) hx'
  obtain ⟨q1, q2, q3, q4, q5, -⟩ := releasing_rest .home (homeAsked h s)
  have hseq := releasing_seq .home (homeAsked h s)
  have he : acceptHome h s = releasing .home (homeAsked h s) := by
    have hax : (homeAsked h s).seq.axis = .parked := ha
    have h1 : acceptHome h s = beginRelease .home (homeAsked h s) := by
      show requestStart .home (homeAsked h s) = _
      simp [requestStart, hax]
    rw [h1, beginRelease_quiet (s := homeAsked h s) hno]
    exact if_neg (by rw [show (homeAsked h s).inp = s.inp from rfl, hb]; exact Bool.false_ne_true)
  rw [he]
  have hax : (releasing .home (homeAsked h s)).seq.axis = .releasing := by rw [hseq]; rfl
  refine ⟨by rw [finish_seq, restFollow_axis, hax], by rw [finish_seq, restFollow_startReq, hseq],
    by rw [finish_seq, restFollow_brake, hseq]; rfl, ?_, by rw [finish_brakeRel, q4], by rw [finish_driveEn, q5 hl],
    by rw [finish_gen_s, r2]; rfl, by rw [finish_gen_v, r2], by rw [finish_replies, r3]; rfl, by rw [finish_ctl, r1]; rfl,
    by rw [finish_peers, r4]; rfl, by rw [finish_guard, r5]; rfl, ?_, ?_⟩
  · rw [finish_seq, restFollow_stopped _ (by simp [hax])]
  · rw [finish_meas]; exact congrArg (·.1) q3
  · rw [finish_base, q2]; rfl

/-- From REST the drive is woken first (R6, R125). -/
theorem acceptHome_rest (ha : s.seq.axis = .rest) (hl : s.inp.loopOpen = false) (hr : s.inp.driveReady = false) :
    let t := finish (acceptHome h s)
    t.seq.axis = .waking ∧ t.seq.startReq = .home ∧ t.seq.wake = some s.store.live.wakeTimeout ∧
      brakeRel t = false ∧ driveEn t = true ∧
      t.line.replies = s.line.replies ++ [⟨0, none, .reply ⟨h.sender, .home, h.seq, .done, 0⟩⟩] ∧
      t.ctl = { s.ctl with homing := some ⟨false, false, false⟩ } ∧ t.peers = s.peers ∧ t.guard = s.guard ∧
      path t.gen = path s.gen ∧ senses t.meas = senses s.meas ∧ base t = base s := by
  have he : acceptHome h s = (setAxis .waking (homeAsked h s)).onSeq fun q =>
      { q with startReq := .home, wake := some s.store.live.wakeTimeout } := by
    have hax : (homeAsked h s).seq.axis = .rest := ha
    have h1 : acceptHome h s = enterWaking .home (homeAsked h s) := by
      show requestStart .home (homeAsked h s) = _
      simp [requestStart, hax]
    have hi : (homeAsked h s).inp.driveReady = false := hr
    have hst : (homeAsked h s).store = s.store := rfl
    rw [h1, enterWaking]
    simp [hi, hst]
  have hd : driveEn (acceptHome h s) = true := by
    rw [he]
    exact driveEn_of_axis (by rw [onSeq_inp, setAxis_inp]; exact hl) (by simp) (by simp) (by simp)
  have hs : senses (homeAsked h s).meas = senses s.meas := rfl
  have hp : path (homeAsked h s).gen = path s.gen := rfl
  refine ⟨by simp [he], by simp [he], by simp [he], by simp [he, brakeRel, brakeRelIn], by rw [finish_driveEn, hd], ?_, ?_,
    ?_, ?_, ?_, ?_, ?_⟩
  · rw [finish_replies, he, onSeq_line, setAxis_line]; rfl
  · rw [finish_ctl, he, onSeq_ctl, setAxis_ctl]; rfl
  · rw [finish_peers, he, onSeq_peers, setAxis_peers]; rfl
  · rw [finish_guard, he, onSeq_guard, setAxis_guard]; rfl
  · rw [finish_path, he, onSeq_gen, setAxis_gen, hp]
  · rw [finish_meas, he, onSeq_meas, setAxis_senses, hs]
  · rw [finish_base, he, onSeq_base, setAxis_base]; rfl

/-! ## The start of a homing period -/

/-- The count captured since the last period (R126, R127). -/
def capturedIn : Capture → Option (BitVec 32)
  | .held k => some k
  | .armed => none
  | .disarmed => none

/-- The offset after the referencing of a period (R127). -/
def homedOffset (s : State) : Int :=
  match capturedIn s.meas.capture with
  | none => s.meas.offset
  | some k => ((s.store.live.homePos * 1000000 : Nat) : Int) - k.toInt * s.store.live.nmPerCount

/-- Whether a period finds a captured count. -/
def captured (s : State) : Bool := (capturedIn s.meas.capture).isSome

/-- The set-point shifted with the reference (R127). -/
def homedStart (s : State) : Position := narrowPosition ((s.gen.s.toNat : Int) + (homedOffset s - s.meas.offset))

theorem narrowPosition_toNat (p : Position) : narrowPosition (p.toNat : Int) = p := by
  have := p.isLt
  rw [narrowPosition, if_pos ⟨Int.natCast_nonneg _, by omega⟩, Int.toNat_natCast, BitVec.ofNat_toNat, BitVec.setWidth_eq]

/-- A homing period after its referencing, with the homing inputs and the homing run it had (R38, R127). -/
def homedState (s : State) (hm : HomingInputs) (run : HomingRun) : State :=
  { s with
    gen := { s.gen with
      s := homedStart s
      homing := some { hm with
        h0 := hm.h0 + (homedOffset s - s.meas.offset)
        phase := if captured s then .stop else hm.phase } }
    meas := { s.meas with
      offset := homedOffset s
      referenced := s.meas.referenced || captured s
      capture := if captured s then .disarmed else s.meas.capture }
    ctl := { s.ctl with homing := some { run with referenced := run.referenced || captured s } } }

theorem homedState_unheld {hm : HomingInputs} {run : HomingRun} (hg : s.gen.homing = some hm)
    (hr : s.ctl.homing = some run) (hc : s.meas.capture = .disarmed ∨ s.meas.capture = .armed) :
    homedState s hm run = s := by
  have h1 : captured s = false := by rcases hc with hc | hc <;> rw [captured, hc] <;> rfl
  have h2 : homedOffset s = s.meas.offset := by rcases hc with hc | hc <;> rw [homedOffset, hc] <;> rfl
  rw [homedState, homedStart, h1, h2, Int.sub_self, Int.add_zero, Int.add_zero, narrowPosition_toNat,
    Bool.or_false, Bool.or_false]
  show { s with gen := { s.gen with homing := some hm }, ctl := { s.ctl with homing := some run } } = s
  rw [← hg, ← hr]

theorem applyReference_homing {hm : HomingInputs} {run : HomingRun} (hg : s.gen.homing = some hm)
    (hr : s.ctl.homing = some run) : applyReference s = homedState s hm run := by
  cases hc : s.meas.capture with
  | armed => rw [applyReference_unheld (.inr hc), homedState_unheld hg hr (.inr hc)]
  | disarmed => rw [applyReference_unheld (.inl hc), homedState_unheld hg hr (.inl hc)]
  | held k =>
    have h1 : captured s = true := by rw [captured, hc]; rfl
    have h2 : homedOffset s = referencedOffset s.store.live k := by rw [homedOffset, hc]; rfl
    rw [homedState, homedStart, h1, h2]
    simp only [applyReference, hc, shiftBy, onRun, State.onMeas, State.onGen, State.onCtl, hg, hr, Option.map_some,
      Bool.or_true, if_true]

/-- A rule active during the search aborts it, once (R38, R120). -/
def homingAborts (s : State) (hm : HomingInputs) : Bool :=
  decide (hm.phase = .search) && (periodActive s).any id && !s.guard.notice

/-- The homing run and the homing inputs that a period moves by. -/
def homedRun (s : State) (hm : HomingInputs) (run : HomingRun) : HomingRun :=
  { run with
    aborted := run.aborted || homingAborts s hm
    referenced := run.referenced || captured s }

/-- The homing phase of a period is STOP: it was, or a count is referenced, or the search is aborted (R38). -/
def homingStops (s : State) (hm : HomingInputs) : Bool :=
  decide (hm.phase = .stop) || captured s || homingAborts s hm

def homedMove (s : State) (hm : HomingInputs) : HomingInputs :=
  { hm with
    h0 := hm.h0 + (homedOffset s - s.meas.offset)
    phase := if homingStops s hm then .stop else .search }

/-- The state before the generator of a homing period (R22, R38, R120, R127). -/
structure Homed (s b : State) (hm : HomingInputs) (run : HomingRun) : Prop where
  seq : b.seq = s.seq
  sup : b.sup = s.sup
  base : base b = base s
  line : b.line = s.line
  peers : b.peers = s.peers
  ctl : b.ctl = { s.ctl with homing := some (homedRun s hm run) }
  point : b.gen.s = homedStart s
  vel : b.gen.v = s.gen.v
  homing : b.gen.homing = some (homedMove s hm)
  meas : b.meas = latchCount s.store.live { s.meas with
    offset := homedOffset s
    referenced := s.meas.referenced || captured s
    capture := if captured s then .disarmed else s.meas.capture }
  active : b.guard.active = periodActive s
  notice : b.guard.notice = (s.guard.notice || homingAborts s hm)

/-- A homing period with its count latched and the guard computed. -/
def homeSensed (s : State) (hm : HomingInputs) (run : HomingRun) : State :=
  guardCompute ((homedState s hm run).onMeas (latchCount s.store.live))

theorem homeSensed_ctl (s : State) (hm : HomingInputs) (run : HomingRun) : (homeSensed s hm run).ctl =
    { s.ctl with homing := some { run with referenced := run.referenced || captured s } } := rfl

theorem homeSensed_gen (s : State) (hm : HomingInputs) (run : HomingRun) : (homeSensed s hm run).gen = { s.gen with
    s := homedStart s
    homing := some { hm with
      h0 := hm.h0 + (homedOffset s - s.meas.offset)
      phase := if captured s then .stop else hm.phase } } := rfl

theorem homeSensed_meas (s : State) (hm : HomingInputs) (run : HomingRun) : (homeSensed s hm run).meas =
    latchCount s.store.live { s.meas with
      offset := homedOffset s
      referenced := s.meas.referenced || captured s
      capture := if captured s then .disarmed else s.meas.capture } := rfl

theorem homeSensed_guard (s : State) (hm : HomingInputs) (run : HomingRun) :
    (homeSensed s hm run).guard.active = periodActive s ∧ (homeSensed s hm run).guard.notice = s.guard.notice := ⟨rfl, rfl⟩

theorem homeSensed_keeps (s : State) (hm : HomingInputs) (run : HomingRun) : (homeSensed s hm run).seq = s.seq ∧
    (homeSensed s hm run).sup = s.sup ∧ base (homeSensed s hm run) = base s ∧ (homeSensed s hm run).line = s.line ∧
    (homeSensed s hm run).peers = s.peers := ⟨rfl, rfl, rfl, rfl, rfl⟩

theorem homed_beforeGenerator {hm : HomingInputs} {run : HomingRun} (ha : s.seq.axis = .homing) (hg : s.gen.homing = some hm)
    (hr : s.ctl.homing = some run) : Homed s (beforeGenerator s) hm run := by
  have hsearch : homingSearch s = decide (hm.phase = .search) := by simp [homingSearch, ha, hg]
  have hb : beforeGenerator s = couple (homingAbort (homingSearch s) (homeSensed s hm run)) := by
    rw [beforeGenerator, applyReference_homing hg hr]; rfl
  obtain ⟨kseq, ksup, kbase, kline, kpeers⟩ := homeSensed_keeps s hm run
  have kctl := homeSensed_ctl s hm run
  have kgen := homeSensed_gen s hm run
  have kmeas := homeSensed_meas s hm run
  obtain ⟨kactive, knotice⟩ := homeSensed_guard s hm run
  generalize homeSensed s hm run = c at *
  have hcond : (homingSearch s = true ∧ clearVerdict c = false ∧ c.guard.notice = false) ↔ homingAborts s hm = true := by
    rw [hsearch, clearVerdict, kactive, knotice, homingAborts]
    simp only [Bool.and_eq_true, Bool.not_eq_true', Bool.not_eq_false', and_assoc]
  have hnone : couple (homingAbort (homingSearch s) c) = homingAbort (homingSearch s) c := by
    have hax : (homingAbort (homingSearch s) c).seq.axis = .homing := by
      rw [homingAbort]
      split <;> exact (congrArg _ kseq).trans ha
    exact couple_off (by simp [targetPeriod, stoppingOf, hax])
  rw [hb, hnone, homingAbort]
  cases hab : homingAborts s hm with
  | true =>
    have hstops : homingStops s hm = true := by simp [homingStops, hab]
    rw [if_pos (hcond.2 hab)]
    refine ⟨kseq, ksup, kbase, kline, kpeers, ?_, ?_, ?_, ?_, kmeas, kactive, ?_⟩
    · rw [homedRun, hab, Bool.or_true]
      simp only [onRun, onHoming, onCtl_ctl, onGen_ctl, onGuard_ctl, kctl, Option.map_some]
    · simp only [onRun, onHoming, onCtl_gen, onGen_gen, onGuard_gen, kgen]
    · simp only [onRun, onHoming, onCtl_gen, onGen_gen, onGuard_gen, kgen]
    · rw [homedMove, hstops]
      simp only [onRun, onHoming, onCtl_gen, onGen_gen, onGuard_gen, kgen, Option.map_some, if_true]
    · rw [hab, Bool.or_true]; rfl
  | false =>
    have hphase : (if captured s then HomingPhase.stop else hm.phase) =
        if homingStops s hm then .stop else .search := by
      rw [homingStops, hab]
      cases captured s <;> cases hm.phase <;> rfl
    rw [if_neg (fun h => by simp [hcond.1 h] at hab)]
    refine ⟨kseq, ksup, kbase, kline, kpeers, ?_, by rw [kgen], by rw [kgen], ?_, kmeas, kactive, ?_⟩
    · rw [homedRun, hab, Bool.or_false]; exact kctl
    · rw [homedMove, ← hphase, kgen]
    · rw [hab, Bool.or_false]; exact knotice

/-! ## The step of a homing period -/

theorem generate_homing {b : State} {g : HomingInputs} (ha : b.seq.axis = .homing) (hg : b.gen.homing = some g) :
    generate b = (b.onGen fun q => { q with s := forward g.dir q.s (homingStep b g).step, v := (homingStep b g).v },
      .homed (homingStep b g).v (homingStep b g).arrived) := by
  have hmode : modeOf b = .homing := by simp [modeOf, ha]
  simp only [generate, hmode, homingMode, hg]

/-- What the speed tests of a homing period judge: `searched` of the statement with what the report reads. -/
structure Searched (s w : State) (hm : HomingInputs) (run : HomingRun) (point : Position) (vel : Nat) : Prop where
  seq : w.seq = s.seq
  sup : w.sup = s.sup
  base : base w = base s
  statusDue : w.line.statusDue = s.line.statusDue
  peers : w.peers = s.peers
  ctl : w.ctl = { s.ctl with homing := some (homedRun s hm run) }
  point : w.gen.s = point
  vel : w.gen.v = vel
  homing : w.gen.homing = some (homedMove s hm)
  meas : ∃ d, w.meas = { latchCount s.store.live { s.meas with
    offset := homedOffset s
    referenced := s.meas.referenced || captured s
    capture := if captured s then .disarmed else s.meas.capture } with pendingDuty := d }
  active : w.guard.active = periodActive s
  notice : w.guard.notice = (s.guard.notice || homingAborts s hm)

/-- The homing step of a period (R37). -/
def homedStep (s : State) (hm : HomingInputs) : PeriodStep :=
  homingPeriod s.gen.v (if homingStops s hm then 0 else hm.vmax) hm.accel
    (homingRemaining (homedMove s hm) (homedStart s))

theorem searched {hm : HomingInputs} {run : HomingRun} (ha : s.seq.axis = .homing) (hg : s.gen.homing = some hm)
    (hr : s.ctl.homing = some run) :
    Searched s (runGenerator (beforeGenerator s)).1 hm run
      (forward hm.dir (homedStart s) (homedStep s hm).step) (homedStep s hm).v ∧
    (runGenerator (beforeGenerator s)).2 = .homed (homedStep s hm).v (homedStep s hm).arrived := by
  have hb := homed_beforeGenerator ha hg hr
  generalize beforeGenerator s = b at hb
  have hstep : homingStep b (homedMove s hm) = homedStep s hm := by
    have htarget : homingTarget (homedMove s hm) = if homingStops s hm then 0 else hm.vmax := by
      simp only [homingTarget, homedMove]
      cases homingStops s hm <;> rfl
    rw [homingStep, htarget, hb.vel, hb.point, homedStep]; rfl
  have hgen := generate_homing (by rw [hb.seq, ha]) hb.homing
  rw [hstep] at hgen
  obtain ⟨_, l, _, hshape, hdue⟩ := runGenerator_shape b
  have hrun := runGenerator_eq hgen
  refine ⟨⟨?_, ?_, ?_, ?_, ?_, ?_, ?_, ?_, ?_, ?_, ?_, ?_⟩, by rw [hrun]⟩
  · rw [runGenerator_seq, hb.seq]
  · rw [hshape, hb.sup]
  · rw [hrun]; exact hb.base
  · rw [hshape]; exact hdue.trans (congrArg _ hb.line)
  · rw [hshape, hb.peers]
  · rw [runGenerator_ctl, hb.ctl]
  · rw [hrun]
    show forward (homedMove s hm).dir b.gen.s (homedStep s hm).step = _
    rw [hb.point]; rfl
  · rw [hrun]; rfl
  · rw [hrun]; exact hb.homing
  · rw [hrun, ← hb.meas]; exact ⟨_, rfl⟩
  · rw [hshape, hb.active]
  · rw [hshape, hb.notice]

end home

end Sys2Proof.Machine


/-! PROOFS. The reports of a homing period, and HOME settled (O44; R37, R128, R129). -/

namespace Sys2Proof.Machine

section homing
variable {s u w z t : State} {hm : HomingInputs} {run : HomingRun} {point : Position} {vel : Nat}

/-- What a homing period leaves, carried through its report: `searched` of the statement. -/
structure SearchLeft (s t : State) (hm : HomingInputs) (point : Position) (vel : Nat) : Prop where
  point : t.gen.s = point
  vel : t.gen.v = vel
  offset : t.meas.offset = homedOffset s
  measured : t.meas.measured = clampPosition (homedOffset s + s.meas.count.toInt * s.store.live.nmPerCount)
  referenced : t.meas.referenced = (s.meas.referenced || captured s)
  active : t.guard.active = periodActive s
  notice : t.guard.notice = (s.guard.notice || homingAborts s hm)
  peers : t.peers = s.peers
  base : base t = base s

theorem SearchLeft.of_same (h : SearchLeft s u hm point vel) (hp : path t.gen = path u.gen)
    (hm' : senses t.meas = senses u.meas) (hg : t.guard = u.guard) (hpe : t.peers = u.peers)
    (hb : Machine.base t = Machine.base u) : SearchLeft s t hm point vel := by
  simp only [path, Prod.mk.injEq] at hp
  simp only [senses, Prod.mk.injEq] at hm'
  obtain ⟨p1, p2, -⟩ := hp
  obtain ⟨-, -, m3, -, -, m6, m7, -⟩ := hm'
  exact ⟨p1.trans h.point, p2.trans h.vel, m6.trans h.offset, m3.trans h.measured, m7.trans h.referenced,
    by rw [hg]; exact h.active, by rw [hg]; exact h.notice, hpe.trans h.peers, hb.trans h.base⟩

theorem SearchLeft.finish (h : SearchLeft s u hm point vel) : SearchLeft s (finish u) hm point vel :=
  h.of_same (by simp) (by simp) (by simp) (by simp) (by simp)

theorem SearchLeft.setAxis (h : SearchLeft s u hm point vel) (a : AxisState) : SearchLeft s (setAxis a u) hm point vel :=
  h.of_same (by simp) (by simp) (by simp) (by simp) (by simp)

theorem SearchLeft.onSeq (h : SearchLeft s u hm point vel) (f : Sequencer → Sequencer) :
    SearchLeft s (u.onSeq f) hm point vel := h.of_same rfl rfl rfl rfl rfl

theorem Searched.left (h : Searched s w hm run point vel) : SearchLeft s (judged w) hm point vel := by
  obtain ⟨-, -, kgen, kmeas, kpeers, -⟩ := judged_keeps w
  obtain ⟨r, hr⟩ := judged_shape w
  have hg : (judged w).guard = w.guard := by rw [hr]
  have hb : Machine.base (judged w) = Machine.base w := by rw [hr]; rfl
  obtain ⟨d, hd⟩ := h.meas
  rw [hd] at kmeas
  refine ⟨by rw [kgen, h.point], by rw [kgen, h.vel], by rw [kmeas]; rfl, by rw [kmeas]; rfl, by rw [kmeas]; rfl,
    by rw [hg, h.active], by rw [hg, h.notice], kpeers.trans h.peers, hb.trans h.base⟩

/-- A homing period that raises no speed condition, acting on its report. -/
theorem period_searched (hh : s.held = none) (ha : s.seq.axis = .homing) (hg : s.gen.homing = some hm)
    (hr : s.ctl.homing = some run) (hx : s.ctl.ctx = none) (hc : CalmUnder (s.store.live.homeSpeed * 1000) s)
    (hf : FollowsWithin s (forward hm.dir (homedStart s) (homedStep s hm).step)
      (clampPosition (homedOffset s + s.meas.count.toInt * s.store.live.nmPerCount))) :
    ∃ w, Searched s w hm run (forward hm.dir (homedStart s) (homedStep s hm).step) (homedStep s hm).v ∧
      exec .profilePeriod s = .next (finish (actOnHoming (homedStep s hm).v (homedStep s hm).arrived (judged w))) := by
  obtain ⟨hw, hrep⟩ := searched ha hg hr
  have he := exec_period (watched_of hh (by simp [ha]))
  rw [hrep] at he
  generalize (runGenerator (beforeGenerator s)).1 = w at hw he
  obtain ⟨d, hd⟩ := hw.meas
  have hstore : w.store = s.store := store_of_base hw.base
  have hlim : speedLimit w = s.store.live.homeSpeed * 1000 := by
    simp [speedLimit, cueMove, hw.ctl, hx, hw.seq, ha, hstore]
  have hover : overspeedNow w = false := by
    rw [overspeedNow, hlim, hd]
    exact decide_eq_false (Nat.not_lt.2 hc.1)
  have hjump : encoderNow w = false := by
    rw [encoderNow, hstore, hd]
    exact decide_eq_false (Nat.not_lt.2 hc.2)
  have herr : errorNow w = positionError (forward hm.dir (homedStart s) (homedStep s hm).step)
      (clampPosition (homedOffset s + s.meas.count.toInt * s.store.live.nmPerCount)) := by
    rw [errorNow, hw.point, hd]; rfl
  rw [judgeMotion_calm hover hjump (fun _ => by rw [herr, hstore]; exact hf)] at he
  exact ⟨w, hw, he⟩

section reports
variable (hs : Settled s) (ha : s.seq.axis = .homing) (hx : s.ctl.ctx = none) (hw : Searched s w hm run point vel)
  {arrived : Bool}
include hw

theorem judged_homing : (judged w).seq = s.seq ∧ (judged w).ctl = { s.ctl with homing := some (homedRun s hm run) } ∧
    (judged w).gen.homing = some (homedMove s hm) ∧ (judged w).sup.latched = s.sup.latched ∧
    (judged w).meas.capture = (if captured s then .disarmed else s.meas.capture) := by
  obtain ⟨kseq, kctl, kgen, kmeas, -⟩ := judged_keeps w
  obtain ⟨r, hr⟩ := judged_shape w
  obtain ⟨d, hd⟩ := hw.meas
  refine ⟨kseq.trans hw.seq, kctl.trans hw.ctl, by rw [kgen, hw.homing], ?_, by rw [kmeas, hd]; rfl⟩
  rw [hr]; show w.sup.latched = _; rw [hw.sup]

theorem armed_iff : (judged w).meas.capture = .armed ↔ s.meas.capture = .armed := by
  obtain ⟨-, -, -, -, hcap⟩ := judged_homing hw
  rw [hcap]
  cases hc : s.meas.capture <;> simp [captured, capturedIn, hc]

theorem stopped_iff : homingStopped (judged w) = homingStops s hm := by
  obtain ⟨-, -, hg, -⟩ := judged_homing hw
  simp only [homingStopped, hg, homedMove, Option.any_some]
  cases homingStops s hm <;> rfl

include ha

/-- The report of a homing period, by the state it was judged in (R15, R37, R128). -/
theorem actOnHoming_judged : actOnHoming vel arrived (judged w) =
    if arrived = true ∧ s.meas.capture = .armed then raiseHomeMiss (judged w)
    else if vel = 0 ∧ (arrived = true ∨ homingStops s hm = true) then endHoming (judged w) else judged w := by
  simp only [actOnHoming, (judged_homing hw).1, ha, armed_iff hw, stopped_iff hw, if_true]

include hs in
/-- The homing move goes on (R37). -/
theorem report_searching (hmiss : ¬(arrived = true ∧ s.meas.capture = .armed))
    (hend : ¬(vel = 0 ∧ (arrived = true ∨ homingStops s hm = true))) :
    let t := finish (actOnHoming vel arrived (judged w))
    SearchLeft s t hm point vel ∧ t.seq = s.seq ∧ t.ctl = { s.ctl with homing := some (homedRun s hm run) } ∧
      t.gen.homing = some (homedMove s hm) ∧ t.sup.latched = s.sup.latched ∧
      t.meas.capture = (if captured s then .disarmed else s.meas.capture) := by
  obtain ⟨kseq, kctl, kgen, klat, kcap⟩ := judged_homing hw
  have hact : actOnHoming vel arrived (judged w) = judged w := by
    rw [actOnHoming_judged ha hw, if_neg hmiss, if_neg hend]
  have hleft := hw.left
  have hfin : finish (judged w) = judged w :=
    finish_of hs ((congrArg _ (judged_keeps w).2.2.2.2.2.1).trans hw.statusDue) kseq (by rw [kctl]) (by rw [kctl])
      (by rw [store_of_base hleft.base])
  rw [hact, hfin]
  exact ⟨hleft, kseq, kctl, kgen, klat, kcap⟩

/-- The homing move ends and the brake is set (R15, R129). -/
theorem report_homed (hmiss : ¬(arrived = true ∧ s.meas.capture = .armed))
    (hend : vel = 0 ∧ (arrived = true ∨ homingStops s hm = true)) (hb : s.inp.brakeReleased = true)
    (hres : (homedRun s hm run).aborted = true ∨ (homedRun s hm run).referenced = true) :
    let t := finish (actOnHoming vel arrived (judged w))
    SearchLeft s t hm point vel ∧ t.seq.axis = .setting ∧ t.seq.dest = .parked ∧
      t.seq.brake = some s.store.live.brakeTime ∧ brakeRel t = false ∧ t.gen.homing = none ∧
      t.sup.latched = s.sup.latched ∧ t.ctl = { s.ctl with
        homing := none
        lastEvent := some (.homingEnded (if (homedRun s hm run).aborted then .homeAborted else .homed)) } := by
  obtain ⟨kseq, kctl, kgen, klat, kcap⟩ := judged_homing hw
  have hact : actOnHoming vel arrived (judged w) = endHoming (judged w) := by
    rw [actOnHoming_judged ha hw, if_neg hmiss, if_pos hend]
  have hleft := hw.left
  rw [hact]
  generalize judged w = z at *
  have hresult : homingResult z (homedRun s hm run) = if (homedRun s hm run).aborted then .homeAborted else .homed := by
    rw [homingResult]
    cases hab : (homedRun s hm run).aborted with
    | true => rfl
    | false =>
      have := hres.resolve_left (by simp [hab])
      simp [this]
  have hrec : recordHoming z = closeHoming (if (homedRun s hm run).aborted then .homeAborted else .homed) z := by
    simp only [recordHoming, kctl, hresult]
  have hi : (closeHoming (if (homedRun s hm run).aborted then .homeAborted else .homed) z).inp.brakeReleased = true := by
    show z.inp.brakeReleased = true
    rw [inp_of_base hleft.base]; exact hb
  have hst : (setAxis .setting (closeHoming (if (homedRun s hm run).aborted then .homeAborted else .homed) z)).store =
      s.store := by rw [setAxis_store]; exact store_of_base hleft.base
  have hclosed : SearchLeft s (closeHoming (if (homedRun s hm run).aborted then .homeAborted else .homed) z) hm point vel :=
    hleft.of_same rfl rfl rfl rfl rfl
  rw [endHoming, hrec, enterSetting_waits _ _ hi, hst]
  refine ⟨((hclosed.setAxis _).onSeq _).finish, by simp, by simp, by simp, by simp [brakeRel, brakeRelIn], ?_, ?_, ?_⟩
  · rw [finish_gen_homing, onSeq_gen, setAxis_gen]; rfl
  · rw [finish_sup, onSeq_sup, setAxis_latched]; exact klat
  · rw [finish_ctl, onSeq_ctl, setAxis_ctl, contextIn_other _ _ (by decide)]
    simp only [closeHoming, recordEvent, onGen_ctl, onCtl_ctl, kctl]

include hx in
/-- The end of the travel with nothing captured raises HOME_MISS (R128). -/
theorem report_missed (hmiss : arrived = true ∧ s.meas.capture = .armed) :
    let t := finish (actOnHoming vel arrived (judged w))
    SearchLeft s t hm point vel ∧ t.seq.axis = .stopping ∧ t.seq.stopKind = .fast ∧ t.seq.dest = .tripped ∧
      t.sup.latched = insertCondition .homeMiss s.sup.latched ∧
      t.ctl = { s.ctl with homing := some { homedRun s hm run with missed := true } } ∧ t.meas.capture = .disarmed := by
  obtain ⟨kseq, kctl, kgen, klat, kcap⟩ := judged_homing hw
  have hact : actOnHoming vel arrived (judged w) = raiseHomeMiss (judged w) := by
    rw [actOnHoming_judged ha hw, if_pos hmiss]
  have hleft := hw.left
  rw [hact]
  generalize judged w = z at *
  have hctx : z.ctl.ctx = none := by rw [kctl]; exact hx
  have he : raiseHomeMiss z = enterStopping .fast .tripped { z with
      meas := { z.meas with capture := .disarmed }
      ctl := { s.ctl with homing := some { homedRun s hm run with missed := true } }
      sup := { z.sup with latched := insertCondition .homeMiss z.sup.latched } } := by
    have hax : z.seq.axis = .homing := by rw [kseq, ha]
    have hctl : (onRun (fun r => { r with missed := true }) (z.onMeas fun m => { m with capture := .disarmed })).ctl =
        { s.ctl with homing := some { homedRun s hm run with missed := true } } := by
      simp only [onRun, onCtl_ctl, onMeas_ctl, kctl, Option.map_some]
    simp only [raiseHomeMiss, fastLatch, latch_seq, onRun, onCtl_seq, onMeas_seq, hax]
    rw [failContext, onCtx]
    congr 1
    simp only [onRun] at hctl
    simp only [latch, State.onSup, State.onCtl, State.onMeas, kctl, hx, Option.map_none, Option.map_some]
  have hmid : SearchLeft s { z with
      meas := { z.meas with capture := .disarmed }
      ctl := { s.ctl with homing := some { homedRun s hm run with missed := true } }
      sup := { z.sup with latched := insertCondition .homeMiss z.sup.latched } } hm point vel :=
    hleft.of_same rfl rfl rfl rfl rfl
  rw [he]
  refine ⟨((hmid.setAxis _).onSeq _).finish, by simp, by simp, by simp, ?_, ?_, ?_⟩
  · rw [finish_sup, enterStopping, onSeq_sup, setAxis_latched, klat]
  · rw [finish_ctl, enterStopping, onSeq_ctl, setAxis_ctl, contextIn_other _ _ (by decide)]
  · rw [finish_meas, enterStopping, onSeq_meas]
    simp [setAxis, captureIn]

end reports

end homing

/-- Settles O44: HOME by its tests, the two starts, and the three reports of a homing period. -/
theorem homeStartsOrRefuses : Obligations.HomeStartsOrRefuses := by
  intro s h hs
  refine ⟨fun ht => ⟨fun hi => ?_, fun hi he => ?_, fun hi he hv => ?_⟩,
    fun ht hx hq he hv hl => ⟨fun ha hb hno => ?_, fun ha hr => ?_⟩, exec_home_broadcast, ?_⟩
  · exact exec_home_refused ht (by simp [homeRefusal, hi])
  · exact exec_home_refused ht (by simp [homeRefusal, hi, he])
  · exact exec_home_refused ht (by simp [homeRefusal, hi, he, hv])
  · rw [exec_home_accepted ht (by simp [homeRefusal, homeIdle, ha, hx, hq, he, hv]), answers_next]
    exact acceptHome_parked ha hx hl hb hno
  · rw [exec_home_accepted ht (by simp [homeRefusal, homeIdle, ha, hx, hq, he, hv]), answers_next]
    exact acceptHome_rest ha hl hr
  · intro hm hg run hr hh ha hx hc live found offset start measured aborts stops move p point after missed ends searched hf
    obtain ⟨w, hw, he⟩ := period_searched hh ha hg hr hx hc hf
    rw [he]
    simp only [answers_next]
    have hleft {t : State} (h : SearchLeft s t hm point p.v) : searched t :=
      ⟨h.point, h.vel, h.offset, h.measured, h.referenced, h.active, h.notice, h.peers, h.base⟩
    have hmissed : missed = true ↔ p.arrived = true ∧ s.meas.capture = .armed := by
      simp only [missed, Bool.and_eq_true, decide_eq_true_eq]
    have hends : ends = true ↔ p.v = 0 ∧ (p.arrived = true ∨ homingStops s hm = true) := by
      simp only [ends, Bool.and_eq_true, Bool.or_eq_true, decide_eq_true_eq]
      rfl
    refine ⟨fun hm0 he0 => ?_, fun hm0 he1 hb hres => ?_, fun hm1 => ?_⟩
    · obtain ⟨h1, h2⟩ := report_searching hs ha hw (fun hc => by simp [hmissed.2 hc] at hm0)
        (fun hc => by simp [hends.2 hc] at he0)
      exact ⟨hleft h1, h2⟩
    · obtain ⟨h1, h2⟩ := report_homed ha hw (fun hc => by simp [hmissed.2 hc] at hm0) (hends.1 he1) hb hres
      exact ⟨hleft h1, h2⟩
    · obtain ⟨h1, h2⟩ := report_missed ha hx hw (hmissed.1 hm1)
      exact ⟨hleft h1, h2⟩

end Sys2Proof.Machine


/-! PROOFS. The completion of a load conversion: the sample filtered, a slack load landed, one condition found alone
(O54; R131, R132, R140, R143 to R149). -/

namespace Sys2Proof.Machine

section load
variable {s u v w z t : State} {c d : Condition} {x : CueContext} {raw : BitVec 12}

/-! ## The sample -/

/-- The part with the sample of a conversion taken (R131, R132). -/
def sampled (raw : BitVec 12) (s : State) : State := s.onMeas (takeSample s.store.live raw)

theorem exec_conversion (hh : s.held = none) (ha : s.seq.axis ≠ .unaddressed) (hc : s.meas.converting = true) :
    exec (.loadConversionComplete raw) s = .next (finish (judgeLoad (sampled raw s))) :=
  if_pos (by simp [watched_of hh ha, hc])

theorem judgeSlack_still (u : State) : still (judgeSlack u) = still u := by
  unfold judgeSlack
  split
  · split
    · split
      · simp
      · split <;> simp
    · simp
  · rfl

theorem judgeSlack_base (u : State) : base (judgeSlack u) = base u := by
  unfold judgeSlack
  split
  · split
    · split
      · simp
      · split <;> simp
    · simp
  · rfl

theorem judgeLoad_still (u : State) : still (judgeLoad u) = still u := by
  simp [judgeLoad, judgeSlack_still]

theorem judgeLoad_base (u : State) : base (judgeLoad u) = base u := by
  simp [judgeLoad, judgeSlack_base]

theorem sampled_invalid (h : raw = 0 ∨ raw = 4095) : (sampled raw s).meas =
    { s.meas with converting := false, invalidRun := min (s.meas.invalidRun + 1) 4 } := by
  have hr : rawInvalid raw = true := by simpa [rawInvalid] using h
  simp [sampled, takeSample, hr]

/-- The window of the latest four loads (R132). -/
def windowWith (s : State) (raw : BitVec 12) : List Int :=
  s.meas.window.drop (s.meas.window.length - 3) ++
    [((raw.toNat : Int) - s.store.live.loadZero) * s.store.live.loadScale]

theorem joinWindow_eq {l : Int} {w : List Int} (h : w.length ≤ 4) : joinWindow l w = w.drop (w.length - 3) ++ [l] := by
  rw [joinWindow]
  by_cases h4 : w.length < 4
  · have : w.length - 3 = 0 := by omega
    rw [if_pos h4, this, List.drop_zero]
  · have : w.length - 3 = 1 := by omega
    rw [if_neg h4, this, List.drop_one]

theorem sampled_valid (h0 : raw ≠ 0) (h1 : raw ≠ 4095) (hl : s.meas.window.length ≤ 4) : (sampled raw s).meas =
    { s.meas with
      converting := false
      invalidRun := 0
      window := windowWith s raw
      filtered := some (Int.tdiv (windowWith s raw).sum (windowWith s raw).length) } := by
  have hr : rawInvalid raw = false := by rw [rawInvalid, decide_eq_false h0, decide_eq_false h1]; rfl
  have hw : joinWindow (loadOf s.store.live raw) s.meas.window = windowWith s raw := joinWindow_eq hl
  have hne : (windowWith s raw).isEmpty = false := by simp [windowWith]
  simp [sampled, takeSample, hr, hw, meanOf, hne]

/-- What the conversion leaves of the measured values: those of the sample (R131, R132). -/
theorem judged_senses : senses (finish (judgeLoad (sampled raw s))).meas = senses (sampled raw s).meas := by
  rw [finish_meas]; exact congrArg (·.1) (judgeLoad_still _)

/-! ## A condition noted absent -/

/-- Other conditions marked absent: the presence of one and the members of the recovery stand. -/
structure Faded (c : Condition) (v t : State) : Prop where
  shape : ∃ p r, t = { v with sup := { v.sup with present := p, recovery := r } }
  present : isPresent t c = isPresent v c
  conds : t.sup.recovery.map (·.conds) = v.sup.recovery.map (·.conds)
  wait : t.sup.recovery.map (·.wait) = v.sup.recovery.map (·.wait)
  fresh : v.sup.recovery = some ⟨[c], none, 0⟩ → (v.seq.axis = .recovering → isPresent v c = true) →
    t.sup.recovery = some ⟨[c], none, 0⟩

theorem Faded.refl (c : Condition) (v : State) : Faded c v v := ⟨⟨_, _, rfl⟩, rfl, rfl, rfl, fun h _ => h⟩

theorem Faded.seq (h : Faded c v t) : t.seq = v.seq := by obtain ⟨p, r, hs⟩ := h.shape; rw [hs]
theorem Faded.ctl (h : Faded c v t) : t.ctl = v.ctl := by obtain ⟨p, r, hs⟩ := h.shape; rw [hs]
theorem Faded.gen (h : Faded c v t) : t.gen = v.gen := by obtain ⟨p, r, hs⟩ := h.shape; rw [hs]
theorem Faded.meas (h : Faded c v t) : t.meas = v.meas := by obtain ⟨p, r, hs⟩ := h.shape; rw [hs]
theorem Faded.line (h : Faded c v t) : t.line = v.line := by obtain ⟨p, r, hs⟩ := h.shape; rw [hs]
theorem Faded.peers (h : Faded c v t) : t.peers = v.peers := by obtain ⟨p, r, hs⟩ := h.shape; rw [hs]
theorem Faded.guard (h : Faded c v t) : t.guard = v.guard := by obtain ⟨p, r, hs⟩ := h.shape; rw [hs]
theorem Faded.base (h : Faded c v t) : Machine.base t = Machine.base v := by obtain ⟨p, r, hs⟩ := h.shape; rw [hs]; rfl
theorem Faded.store (h : Faded c v t) : t.store = v.store := by obtain ⟨p, r, hs⟩ := h.shape; rw [hs]
theorem Faded.latched (h : Faded c v t) : t.sup.latched = v.sup.latched := by obtain ⟨p, r, hs⟩ := h.shape; rw [hs]
theorem Faded.recovery_none (h : Faded c v t) (hn : v.sup.recovery = none) : t.sup.recovery = none := by
  have := h.conds
  rw [hn] at this
  simpa using this

theorem Faded.trans (h1 : Faded c u v) (h2 : Faded c v t) : Faded c u t := by
  obtain ⟨p1, r1, s1⟩ := h1.shape
  obtain ⟨p2, r2, s2⟩ := h2.shape
  refine ⟨⟨p2, r2, ?_⟩, h2.present.trans h1.present, h2.conds.trans h1.conds, h2.wait.trans h1.wait, fun hr ha => ?_⟩
  · rw [s2, s1]
  · exact h2.fresh (h1.fresh hr ha) (fun hv => by rw [h1.present]; exact ha (by rw [← h1.seq]; exact hv))

/-- The dwell timer set by a rule leaves the members and the wait of a recovery. -/
theorem timed_conds {q : Recovery → Prop} [DecidablePred q] {f : Recovery → Option Nat} (o : Option Recovery) :
    (o.map fun r => if q r then { r with dwell := f r } else { r with dwell := none }).map (·.conds) = o.map (·.conds) ∧
    (o.map fun r => if q r then { r with dwell := f r } else { r with dwell := none }).map (·.wait) = o.map (·.wait) := by
  rw [Option.map_map, Option.map_map]
  constructor
  · refine congrArg (fun g => Option.map g o) (funext fun r => ?_)
    simp only [Function.comp]; split <;> rfl
  · refine congrArg (fun g => Option.map g o) (funext fun r => ?_)
    simp only [Function.comp]; split <;> rfl

theorem dwellFollow_conds (v : State) :
    (dwellFollow v).sup.recovery.map (·.conds) = v.sup.recovery.map (·.conds) ∧
    (dwellFollow v).sup.recovery.map (·.wait) = v.sup.recovery.map (·.wait) := timed_conds v.sup.recovery

theorem setAxis_conds (a : AxisState) (v : State) :
    (setAxis a v).sup.recovery.map (·.conds) = v.sup.recovery.map (·.conds) ∧
    (setAxis a v).sup.recovery.map (·.wait) = v.sup.recovery.map (·.wait) := by
  rw [setAxis_recovery_eq]
  exact timed_conds v.sup.recovery

theorem faded_markAbsent (hd : c ≠ d) (v : State) : Faded c v (markAbsent d v) := by
  obtain ⟨r, hr⟩ := markAbsent_shape d v
  obtain ⟨h1, h2⟩ := dwellFollow_conds (v.onSup fun p => { p with present := removeCondition d p.present })
  have hpres : (removeCondition d v.sup.present).contains c = v.sup.present.contains c := by
    rw [Bool.eq_iff_iff]; simp [hd]
  refine ⟨⟨_, r, hr⟩, ?_, h1, h2, fun hrec ha => ?_⟩
  · rw [isPresent, isPresent, hr]; exact hpres
  · have he : (markAbsent d v).sup.recovery = v.sup.recovery.map fun r =>
        if v.seq.axis = .recovering ∧ (r.conds.all fun c => !(removeCondition d v.sup.present).contains c) = true then
          { r with dwell := some (r.dwell.getD v.store.live.dwell) }
        else { r with dwell := none } := rfl
    rw [he, hrec, Option.map_some]
    by_cases hax : v.seq.axis = .recovering
    · have hp : c ∈ v.sup.present := by simpa [isPresent] using ha hax
      simp [hp, hd]
    · simp [hax]

/-! ## The condition responded to -/

/-- The state in which a condition just found is responded to. -/
structure Noted (c : Condition) (s z : State) : Prop where
  seq : z.seq = s.seq
  ctl : z.ctl = s.ctl
  gen : z.gen = s.gen
  line : z.line = s.line
  peers : z.peers = s.peers
  guard : z.guard = s.guard
  base : base z = base s
  latched : z.sup.latched = s.sup.latched
  present : isPresent z c = true
  conds : z.sup.recovery.map (·.conds) = s.sup.recovery.map (·.conds)
  wait : z.sup.recovery.map (·.wait) = s.sup.recovery.map (·.wait)

theorem noted {y : State} (h : Faded c (sampled raw s) y) : Noted c s (markPresent c y) := by
  obtain ⟨r, hr, -⟩ := markPresent_shape c y
  obtain ⟨h1, h2⟩ := dwellFollow_conds (y.onSup fun p => { p with present := insertCondition c p.present })
  have hb : Machine.base y = Machine.base s := h.base
  refine ⟨?_, ?_, ?_, ?_, ?_, ?_, ?_, ?_, ?_, h1.trans h.conds, h2.trans h.wait⟩
  · rw [hr]; exact h.seq
  · rw [hr]; exact h.ctl
  · rw [hr]; exact h.gen
  · rw [hr]; exact h.line
  · rw [hr]; exact h.peers
  · rw [hr]; exact h.guard
  · rw [markPresent_base]; exact hb
  · rw [hr]; exact h.latched
  · rw [hr]; simp [isPresent]

theorem Noted.recovery_none (h : Noted c s z) (hn : s.sup.recovery = none) : z.sup.recovery = none := by
  have := h.conds
  rw [hn] at this
  simpa using this

theorem evaluate_absent (h : d ≠ c) (v : State) {b : Bool} (hb : b = false) : Faded c v (evaluate d b v) := by
  rw [hb]; exact faded_markAbsent h.symm v

/-- SLACK not found: marked absent on a MOVING axis, else not looked at (R140). -/
theorem judgeSlack_taut (h : c ≠ .slack) (v : State) (hs : slackened v = false) : Faded c v (judgeSlack v) := by
  unfold judgeSlack
  split
  · rw [if_neg (by simp [hs])]
    exact faded_markAbsent h v
  · exact .refl c v

/-- What the load tests read of a state with the sample taken. -/
theorem loads_of_still (h : still t = still (sampled raw s)) :
    t.meas.filtered = (sampled raw s).meas.filtered ∧ t.meas.invalidRun = (sampled raw s).meas.invalidRun := by
  have hm : senses t.meas = senses (sampled raw s).meas := congrArg (·.1) h
  simp only [senses, Prod.mk.injEq] at hm
  obtain ⟨-, -, -, -, -, -, -, -, m9, -, m11⟩ := hm
  exact ⟨m11, m9⟩

/-- A completion that finds one condition anew, and no other, responds to it (R143, log 37). -/
def AloneFound (c : Condition) (s : State) (raw : BitVec 12) : Prop :=
  ∃ z t, Noted c s z ∧ Faded c (respond c z) t ∧ exec (.loadConversionComplete raw) s = .next (finish t)

/-- A slack load on a MOVING axis: the landing of the cue, else the response to a condition found anew (R140, R149). -/
def slackResponse (s z : State) : State :=
  if landingTest s then controlledEnd .landed z else if isPresent s .slack then z else respond .slack z

section found
variable (hh : s.held = none) (ha : s.seq.axis ≠ .unaddressed) (hc : s.meas.converting = true)
include hh ha hc

theorem overload_found (hp : isPresent s .overload = false) (h0 : raw ≠ 0) (h1 : raw ≠ 4095)
    (hl : s.meas.window.length ≤ 4)
    (hover : s.store.live.overload < Int.tdiv (windowWith s raw).sum (windowWith s raw).length)
    (hslack : s.store.live.clsSlack = .off ∨
      s.store.live.slack ≤ Int.tdiv (windowWith s raw).sum (windowWith s raw).length) : AloneFound .overload s raw := by
  have hm := sampled_valid h0 h1 hl
  have hov : overloaded (sampled raw s) = true := by
    rw [overloaded, hm]; exact decide_eq_true hover
  have hv : evaluate .overload (overloaded (sampled raw s)) (sampled raw s) =
      respond .overload (markPresent .overload (sampled raw s)) := by rw [hov]; exact evaluate_new hp
  have hstill : still (respond .overload (markPresent .overload (sampled raw s))) = still (sampled raw s) := by simp
  have hbase : base (respond .overload (markPresent .overload (sampled raw s))) = base s := by
    rw [respond_base, markPresent_base]; rfl
  have hfade : Faded .overload (respond .overload (markPresent .overload (sampled raw s)))
      (judgeSlack (respond .overload (markPresent .overload (sampled raw s)))) := by
    rcases hslack with hoff | htaut
    · have hcl : classOf (respond .overload (markPresent .overload (sampled raw s))) .slack = .off := by
        rw [classOf, store_of_base hbase]; exact hoff
      rw [judgeSlack, if_neg (fun h => h.2 hcl)]
      exact .refl _ _
    · refine judgeSlack_taut (by decide) _ ?_
      rw [slackened, (loads_of_still hstill).1, hm, store_of_base hbase]
      exact decide_eq_false (Int.not_lt.2 htaut)
  have hrun : (judgeSlack (respond .overload (markPresent .overload (sampled raw s)))).meas.invalidRun = 0 := by
    rw [(loads_of_still ((judgeSlack_still _).trans hstill)).2, hm]
  have hsensor : decide ((judgeSlack (respond .overload (markPresent .overload (sampled raw s)))).meas.invalidRun = 4) =
      false := decide_eq_false (by rw [hrun]; decide)
  refine ⟨_, _, noted (.refl _ _), hfade.trans (evaluate_absent (d := .loadSensor) (by decide) _ hsensor), ?_⟩
  rw [exec_conversion hh ha hc, judgeLoad, hv]

theorem slack_reached (h0 : raw ≠ 0) (h1 : raw ≠ 4095) (hl : s.meas.window.length ≤ 4)
    (hslack : Int.tdiv (windowWith s raw).sum (windowWith s raw).length < s.store.live.slack)
    (hover : Int.tdiv (windowWith s raw).sum (windowWith s raw).length ≤ s.store.live.overload)
    (hmov : s.seq.axis = .moving) (hcls : s.store.live.clsSlack ≠ .off) :
    ∃ z t, Noted .slack s z ∧ Faded .slack (slackResponse s z) t ∧
      exec (.loadConversionComplete raw) s = .next (finish t) := by
  have hm := sampled_valid h0 h1 hl
  have hov : overloaded (sampled raw s) = false := by
    rw [overloaded, hm]; exact decide_eq_false (Int.not_lt.2 hover)
  have hfade : Faded .slack (sampled raw s) (evaluate .overload (overloaded (sampled raw s)) (sampled raw s)) :=
    evaluate_absent (by decide) _ hov
  have hnote := noted hfade
  generalize hy : evaluate .overload (overloaded (sampled raw s)) (sampled raw s) = y at hfade hnote
  have hland : landingTest y = landingTest s := by
    rw [landingTest, landingTest, hfade.ctl, hfade.gen, hfade.store]
    rfl
  have hpy : isPresent y .slack = isPresent s .slack := hfade.present
  have hsl : slackened y = true := by
    rw [slackened, hfade.meas, hfade.store, hm]
    exact decide_eq_true hslack
  have hcond : y.seq.axis = .moving ∧ classOf y .slack ≠ .off := by
    rw [hfade.seq, classOf, hfade.store]; exact ⟨hmov, hcls⟩
  have hj : judgeSlack y = slackResponse s (markPresent .slack y) := by
    rw [judgeSlack, if_pos hcond, if_pos hsl]
    simp only [hland, hpy, slackResponse]
  have hstill : still (slackResponse s (markPresent .slack y)) = still (sampled raw s) := by
    rw [← hj, judgeSlack_still, ← hy, evaluate_still]
  have hrun : (slackResponse s (markPresent .slack y)).meas.invalidRun = 0 := by
    rw [(loads_of_still hstill).2, hm]
  have hsensor : decide ((slackResponse s (markPresent .slack y)).meas.invalidRun = 4) = false :=
    decide_eq_false (by rw [hrun]; decide)
  refine ⟨_, _, hnote, evaluate_absent (d := .loadSensor) (by decide) _ hsensor, ?_⟩
  rw [exec_conversion hh ha hc, judgeLoad, hy, hj]

theorem slack_found (hp : isPresent s .slack = false) (h0 : raw ≠ 0) (h1 : raw ≠ 4095) (hl : s.meas.window.length ≤ 4)
    (hslack : Int.tdiv (windowWith s raw).sum (windowWith s raw).length < s.store.live.slack)
    (hover : Int.tdiv (windowWith s raw).sum (windowWith s raw).length ≤ s.store.live.overload)
    (hmov : s.seq.axis = .moving) (hcls : s.store.live.clsSlack ≠ .off) (hland : landingTest s = false) :
    AloneFound .slack s raw := by
  obtain ⟨z, t, hn, hf, he⟩ := slack_reached hh ha hc h0 h1 hl hslack hover hmov hcls
  have hz : slackResponse s z = respond .slack z := by simp [slackResponse, hland, hp]
  exact ⟨z, t, hn, hz ▸ hf, he⟩

theorem loadSensor_found (hp : isPresent s .loadSensor = false) (hraw : raw = 0 ∨ raw = 4095)
    (hrun : 3 ≤ s.meas.invalidRun) (hfil : ∀ l ∈ s.meas.filtered, s.store.live.slack ≤ l ∧ l ≤ s.store.live.overload) :
    AloneFound .loadSensor s raw := by
  have hm := sampled_invalid (s := s) hraw
  have hov : overloaded (sampled raw s) = false := by
    rw [overloaded, hm]
    cases hf : s.meas.filtered with
    | none => rfl
    | some l => exact decide_eq_false (Int.not_lt.2 (hfil l hf).2)
  have hfade1 : Faded .loadSensor (sampled raw s) (evaluate .overload (overloaded (sampled raw s)) (sampled raw s)) :=
    evaluate_absent (by decide) _ hov
  have hsl : slackened (evaluate .overload (overloaded (sampled raw s)) (sampled raw s)) = false := by
    rw [slackened, hfade1.meas, hfade1.store, hm]
    cases hf : s.meas.filtered with
    | none => rfl
    | some l => exact decide_eq_false (Int.not_lt.2 (hfil l hf).1)
  have hfade := hfade1.trans (judgeSlack_taut (by decide) _ hsl)
  have hfour : decide ((judgeSlack (evaluate .overload (overloaded (sampled raw s)) (sampled raw s))).meas.invalidRun = 4) =
      true := by
    rw [hfade.meas, hm]
    exact decide_eq_true (by show min (s.meas.invalidRun + 1) 4 = 4; omega)
  refine ⟨_, _, noted hfade, .refl _ _, ?_⟩
  rw [exec_conversion hh ha hc, judgeLoad]
  simp only [hfour]
  rw [evaluate_new (hfade.present.trans hp)]

end found

end load

end Sys2Proof.Machine


/-! PROOFS. The response to a condition by the state of the axis: the columns of R19 (O54). -/

namespace Sys2Proof.Machine

section rows
variable {s u v w z t : State} {c d : Condition} {x : CueContext}

/-! ## A stop and a set, by a demand -/

theorem enterStopping_ctl (k : StopKind) (d : SetDest) (u : State) : (enterStopping k d u).ctl = u.ctl := by
  simp [enterStopping]

theorem enterStopping_latched (k : StopKind) (d : SetDest) (u : State) :
    (enterStopping k d u).sup.latched = u.sup.latched := by simp [enterStopping]

theorem enterStopping_conds (k : StopKind) (d : SetDest) (u : State) :
    (enterStopping k d u).sup.recovery.map (·.conds) = u.sup.recovery.map (·.conds) ∧
    (enterStopping k d u).sup.recovery.map (·.wait) = u.sup.recovery.map (·.wait) := setAxis_conds .stopping u

theorem setting_waits (d : SetDest) (h : u.inp.brakeReleased = true) :
    (enterSetting d u).seq.axis = .setting ∧ (enterSetting d u).seq.stopKind = u.seq.stopKind ∧
    (enterSetting d u).seq.dest = d ∧ (enterSetting d u).seq.startReq = .none ∧
    (enterSetting d u).ctl = u.ctl ∧ (enterSetting d u).sup = (setAxis .setting u).sup := by
  rw [enterSetting_waits d u h]
  simp [seqIn]

/-! ## FAST with LATCH -/

/-- What a latched condition does to sequencer, cue control and the latched set (R19, R143). -/
def LatchedFor (c : Condition) (s t : State) : Prop :=
  (t.seq.axis, t.seq.stopKind, t.seq.dest) = latchRow s.seq ∧
    t.sup.latched = insertCondition c s.sup.latched ∧
    (t.seq.axis ≠ .tripped → t.ctl = { s.ctl with ctx := s.ctl.ctx.map (faultedContext c) }) ∧
    (t.seq.axis = .tripped → s.seq.axis ≠ .tripped → t.ctl.ctx = none ∧ t.ctl.armed = [])

theorem fastLatch_trips (h : u.seq.axis ∈ [AxisState.suspended, .recovering, .waking, .parked, .rest]) :
    fastLatch c u = enterTripped (.fault c) u := by
  simp only [List.mem_cons, List.not_mem_nil, or_false] at h
  rcases h with h | h | h | h | h <;> simp only [fastLatch, h]

theorem fastLatch_stops (h : u.seq.axis ∈ [AxisState.moving, .held, .homing]) :
    fastLatch c u = enterStopping .fast .tripped (failContext c u) := by
  simp only [List.mem_cons, List.not_mem_nil, or_false] at h
  rcases h with h | h | h <;> simp only [fastLatch, h]

theorem latchedFor_fastLatch (ha : u.seq.axis ≠ .unaddressed) (hb : u.inp.brakeReleased = true) :
    LatchedFor c u (fastLatch c (latch c u)) := by
  by_cases htrip : u.seq.axis ∈ [AxisState.suspended, .recovering, .waking, .parked, .rest]
  · rw [fastLatch_trips (u := latch c u) htrip]
    refine ⟨?_, by simp, fun h => absurd ?_ h, fun _ _ => by simp⟩
    · simp only [List.mem_cons, List.not_mem_nil, or_false] at htrip
      rcases htrip with h | h | h | h | h <;> simp [latchRow, h, seqIn]
    · simp
  by_cases hstop : u.seq.axis ∈ [AxisState.moving, .held, .homing]
  · rw [fastLatch_stops (u := latch c u) hstop]
    obtain ⟨e1, e2, e3⟩ := enterStopping_axis .fast .tripped (failContext c (latch c u))
    refine ⟨?_, enterStopping_latched _ _ _, fun _ => enterStopping_ctl _ _ _, fun h => absurd h (by rw [e1]; decide)⟩
    rw [e1, e2, e3]
    simp only [List.mem_cons, List.not_mem_nil, or_false] at hstop
    rcases hstop with h | h | h <;> simp only [latchRow, h]
  cases hax : u.seq.axis with
  | unaddressed => exact absurd hax ha
  | tripped =>
    have he : fastLatch c (latch c u) = latch c u := by simp [fastLatch, hax]
    rw [he]
    exact ⟨by simp [latchRow, hax], rfl, fun h => absurd hax h, fun _ h => absurd hax h⟩
  | stopping =>
    have he : fastLatch c (latch c u) =
        (failContext c (latch c u)).onSeq fun q => { q with stopKind := .fast, dest := .tripped } := by
      simp [fastLatch, hax]
    rw [he]
    exact ⟨by simp [latchRow, hax], rfl, fun _ => rfl, fun h => absurd (hax.symm.trans h) (by decide)⟩
  | setting =>
    have he : fastLatch c (latch c u) = (failContext c (latch c u)).onSeq fun q => { q with dest := .tripped } := by
      simp [fastLatch, hax]
    rw [he]
    exact ⟨by simp [latchRow, hax], rfl, fun _ => rfl, fun h => absurd (hax.symm.trans h) (by decide)⟩
  | releasing =>
    have he : fastLatch c (latch c u) = enterSetting .tripped (failContext c (latch c u)) := by simp [fastLatch, hax]
    obtain ⟨e1, e2, e3, -, e5, e6⟩ := setting_waits (u := failContext c (latch c u)) .tripped hb
    rw [he]
    refine ⟨?_, ?_, fun _ => e5, fun h => absurd h (by rw [e1]; decide)⟩
    · rw [e1, e2, e3, latchRow, hax]; rfl
    · rw [e6, setAxis_latched]; rfl
  | moving | held | homing => simp [hax] at hstop
  | suspended | recovering | waking | parked | rest => simp [hax] at htrip

/-! ## FAST with RECOVER, a cue context present -/

/-- What a demand that recovers does to sequencer and cue control (R19, R145). -/
def RecoversFor (s t : State) : Prop :=
  (t.seq.axis, t.seq.stopKind, t.seq.dest, t.seq.startReq) = recoverRow s.seq ∧
    t.sup.latched = s.sup.latched ∧ t.ctl.armed = s.ctl.armed

/-- A demand that recovers, with the recovery record it leaves. -/
structure Recovering (u w : State) : Prop where
  row : (w.seq.axis, w.seq.stopKind, w.seq.dest, w.seq.startReq) = recoverRow u.seq
  latched : w.sup.latched = u.sup.latched
  ctl : w.ctl = u.ctl
  conds : w.sup.recovery.map (·.conds) = u.sup.recovery.map (·.conds)
  wait : w.sup.recovery.map (·.wait) = u.sup.recovery.map (·.wait)

theorem recovering_fast (hb : u.inp.brakeReleased = true) : Recovering u (fastRecoverCue u) := by
  cases hax : u.seq.axis with
  | moving | held =>
    have he : fastRecoverCue u = enterStopping .fast .recovering u := by simp [fastRecoverCue, hax]
    obtain ⟨h1, h2⟩ := enterStopping_conds .fast .recovering u
    rw [he]
    refine ⟨?_, enterStopping_latched _ _ _, enterStopping_ctl _ _ _, h1, h2⟩
    simp [enterStopping, recoverRow, hax, seqIn]
  | stopping =>
    have he : fastRecoverCue u = u.onSeq fun q => { q with stopKind := .fast } := by simp [fastRecoverCue, hax]
    rw [he]
    exact ⟨by simp [recoverRow, hax], rfl, rfl, rfl, rfl⟩
  | releasing =>
    have he : fastRecoverCue u = enterSetting .recovering u := by simp [fastRecoverCue, hax]
    obtain ⟨e1, e2, e3, e4, e5, e6⟩ := setting_waits (u := u) .recovering hb
    obtain ⟨h1, h2⟩ := setAxis_conds .setting u
    rw [he]
    refine ⟨?_, ?_, e5, ?_, ?_⟩
    · rw [e1, e2, e3, e4, recoverRow, hax]
    · rw [e6, setAxis_latched]
    · rw [e6, h1]
    · rw [e6, h2]
  | setting =>
    have he : fastRecoverCue u =
        u.onSeq fun q => { q with dest := if q.dest = .suspended then .recovering else q.dest } := by
      simp [fastRecoverCue, hax]
    rw [he]
    exact ⟨by simp [recoverRow, hax], rfl, rfl, rfl, rfl⟩
  | suspended =>
    have he : fastRecoverCue u = setAxis .recovering u := by simp [fastRecoverCue, hax]
    obtain ⟨h1, h2⟩ := setAxis_conds .recovering u
    rw [he]
    exact ⟨by simp [recoverRow, hax, seqIn], setAxis_latched _ _, by simp, h1, h2⟩
  | waking =>
    have he : fastRecoverCue u = u.onSeq fun q => { q with startReq := .recover } := by simp [fastRecoverCue, hax]
    rw [he]
    exact ⟨by simp [recoverRow, hax], rfl, rfl, rfl, rfl⟩
  | unaddressed | rest | parked | recovering | homing | tripped =>
    have he : fastRecoverCue u = u := by simp [fastRecoverCue, hax]
    rw [he]
    exact ⟨by simp [recoverRow, hax], rfl, rfl, rfl, rfl⟩

/-- A recovery of one condition begun: the condition is present, so that no dwell runs (R145, R146). -/
theorem fresh_fastRecoverCue (hb : u.inp.brakeReleased = true) (hbeg : beginsRecovery u = true)
    (hr : u.sup.recovery = some ⟨[c], none, 0⟩) (hp : isPresent u c = true) (h1 : c ≠ .following)
    (h2 : c = .slack → u.seq.axis = .moving) :
    (fastRecoverCue u).sup.recovery = some ⟨[c], none, 0⟩ ∧
      ((fastRecoverCue u).seq.axis = .recovering → isPresent (fastRecoverCue u) c = true) := by
  have hstop : (setAxis .stopping u).sup.recovery = some ⟨[c], none, 0⟩ := by rw [setAxis_recovery_eq, hr]; simp
  have hset : (setAxis .setting u).sup.recovery = some ⟨[c], none, 0⟩ := by rw [setAxis_recovery_eq, hr]; simp
  cases hax : u.seq.axis with
  | moving | held =>
    have he : fastRecoverCue u = enterStopping .fast .recovering u := by simp [fastRecoverCue, hax]
    rw [he]
    exact ⟨hstop, fun h => absurd ((enterStopping_axis .fast .recovering u).1.symm.trans h) (by decide)⟩
  | releasing =>
    have he : fastRecoverCue u = enterSetting .recovering u := by simp [fastRecoverCue, hax]
    obtain ⟨e1, -, -, -, -, e6⟩ := setting_waits (u := u) .recovering hb
    rw [he]
    exact ⟨by rw [e6, hset], fun h => absurd (e1.symm.trans h) (by decide)⟩
  | setting =>
    have he : fastRecoverCue u =
        u.onSeq fun q => { q with dest := if q.dest = .suspended then .recovering else q.dest } := by
      simp [fastRecoverCue, hax]
    rw [he]
    exact ⟨hr, fun h => absurd (hax.symm.trans h) (by decide)⟩
  | waking =>
    have he : fastRecoverCue u = u.onSeq fun q => { q with startReq := .recover } := by simp [fastRecoverCue, hax]
    rw [he]
    exact ⟨hr, fun h => absurd (hax.symm.trans h) (by decide)⟩
  | suspended =>
    have he : fastRecoverCue u = setAxis .recovering u := by simp [fastRecoverCue, hax]
    have hne : c ≠ .slack := fun h => by rw [h2 h] at hax; cases hax
    have hpres : c ∈ (presenceIn .recovering u.sup).present := by
      simp only [isPresent, List.contains_eq_mem, decide_eq_true_eq] at hp
      simp [presenceIn, hp, hne, h1]
    rw [he]
    refine ⟨?_, fun _ => by simp [isPresent, hpres]⟩
    rw [setAxis_recovery_eq, hr]
    simp [hpres]
  | stopping | unaddressed | rest | parked | recovering | homing | tripped => simp [beginsRecovery, hax] at hbeg

/-! ## FAST with RECOVER, no cue context -/

theorem recordHoming_run {r : HomingRun} (h : u.ctl.homing = some r) :
    recordHoming u = closeHoming (homingResult u r) u := by simp [recordHoming, h]

theorem abandonHoming_records {r : HomingRun} (h : u.ctl.homing = some r) :
    (abandonHoming u).ctl.homing = none ∧ (abandonHoming u).ctl.lastEvent = some (.homingEnded .homeAborted) := by
  have hrun : (onRun (fun r => { r with aborted := true }) u).ctl.homing = some { r with aborted := true } := by
    simp [onRun, h]
  rw [abandonHoming, recordHoming_run hrun]
  exact ⟨rfl, rfl⟩

theorem abandonHoming_armed (u : State) : (abandonHoming u).ctl.armed = u.ctl.armed := by
  unfold abandonHoming recordHoming; split <;> rfl

theorem abandonHoming_sup (u : State) : (abandonHoming u).sup = u.sup := by
  unfold abandonHoming recordHoming; split <;> rfl

/-- What a demand that recovers does with no cue context (R19, R129). -/
structure Idling (c : Condition) (u w : State) : Prop where
  row : (w.seq.axis, w.seq.stopKind, w.seq.dest) = idleRow u.seq
  latched : w.sup.latched = u.sup.latched
  present : isPresent w c = true
  armed : w.ctl.armed = u.ctl.armed
  homing : u.seq.axis = .homing → w.ctl.homing = u.ctl.homing.map fun r => { r with aborted := true }
  releasing : u.seq.axis = .releasing → ∀ r ∈ u.ctl.homing,
    w.ctl.homing = none ∧ w.ctl.lastEvent = some (.homingEnded .homeAborted)

theorem idling_fast (hb : u.inp.brakeReleased = true) (hp : isPresent u c = true) (h1 : c ≠ .following)
    (h2 : c = .slack → u.seq.axis = .moving) : Idling c u (fastRecoverIdle u) := by
  have hmem : c ∈ u.sup.present := by simpa [isPresent] using hp
  cases hax : u.seq.axis with
  | homing =>
    have he : fastRecoverIdle u = enterStopping .fast .parked (onRun (fun r => { r with aborted := true }) u) := by
      simp [fastRecoverIdle, hax]
    have hne : c ≠ .slack := fun h => by rw [h2 h] at hax; cases hax
    obtain ⟨e1, e2, e3⟩ := enterStopping_axis .fast .parked (onRun (fun r => { r with aborted := true }) u)
    rw [he]
    refine ⟨by rw [e1, e2, e3, idleRow, hax], enterStopping_latched _ _ _, ?_, ?_, fun _ => ?_, fun h => ?_⟩
    · simp [isPresent, enterStopping, presenceIn, onRun, hmem, hne, h1]
    · rw [enterStopping_ctl]; rfl
    · rw [enterStopping_ctl]; rfl
    · rw [hax] at h; cases h
  | releasing =>
    have he : fastRecoverIdle u = enterSetting .parked (abandonHoming u) := by simp [fastRecoverIdle, hax]
    have hne : c ≠ .slack := fun h => by rw [h2 h] at hax; cases hax
    have hb' : (abandonHoming u).inp.brakeReleased = true := by
      rw [inp_of_base (abandonHoming_base u)]; exact hb
    obtain ⟨e1, e2, e3, -, e5, e6⟩ := setting_waits (u := abandonHoming u) .parked hb'
    rw [he]
    refine ⟨?_, ?_, ?_, ?_, fun h => ?_, fun _ r hr => ?_⟩
    · rw [e1, e2, e3, abandonHoming_seq, idleRow, hax]
    · rw [e6, setAxis_latched, abandonHoming_sup]
    · simp [isPresent, e6, presenceIn, abandonHoming_sup, hmem, hne, h1]
    · rw [e5, abandonHoming_armed]
    · rw [hax] at h; cases h
    · rw [e5]; exact abandonHoming_records hr
  | stopping =>
    have he : fastRecoverIdle u = u.onSeq fun q => { q with stopKind := .fast } := by simp [fastRecoverIdle, hax]
    rw [he]
    refine ⟨by simp [idleRow, hax], rfl, hp, rfl, fun h => ?_, fun h => ?_⟩
    · rw [hax] at h; cases h
    · rw [hax] at h; cases h
  | unaddressed | rest | waking | parked | moving | held | suspended | setting | recovering | tripped =>
    have he : fastRecoverIdle u = u := by simp [fastRecoverIdle, hax]
    rw [he]
    refine ⟨by simp [idleRow, hax], rfl, hp, rfl, fun h => ?_, fun h => ?_⟩
    · rw [hax] at h; cases h
    · rw [hax] at h; cases h

end rows

end Sys2Proof.Machine


/-! PROOFS. The completion of a load conversion, put together (O54; R131, R132, R140, R143 to R149). -/

namespace Sys2Proof.Machine

section alone
variable {s u v w z t : State} {c d : Condition} {x : CueContext} {raw : BitVec 12}

/-! ## The state found, carried to the end of the command -/

theorem LatchedFor.carried (h : LatchedFor c z w) (hn : Noted c s z) (hf : Faded c w t) : LatchedFor c s (finish t) := by
  obtain ⟨hrow, hlat, hctl, htrip⟩ := h
  rw [hn.seq] at hrow htrip
  rw [hn.latched] at hlat
  rw [hn.ctl] at hctl
  refine ⟨?_, ?_, ?_, ?_⟩
  · simpa [hf.seq] using hrow
  · rw [finish_sup, hf.latched, hlat]
  · rw [finish_seq, restFollow_axis, finish_ctl, hf.seq, hf.ctl]; exact hctl
  · rw [finish_seq, restFollow_axis, finish_ctl, hf.seq, hf.ctl]; exact htrip

theorem Recovering.carried (h : Recovering u w) (hseq : u.seq = s.seq) (hlat : u.sup.latched = s.sup.latched)
    (harm : u.ctl.armed = s.ctl.armed) (hf : Faded c w t) : RecoversFor s (finish t) := by
  have hrow := h.row
  rw [hseq] at hrow
  refine ⟨?_, ?_, ?_⟩
  · simpa [hf.seq] using hrow
  · rw [finish_sup, hf.latched, h.latched, hlat]
  · rw [finish_ctl, hf.ctl, h.ctl, harm]

theorem Idling.carried (h : Idling c z w) (hn : Noted c s z) (hf : Faded c w t) : Idling c s (finish t) := by
  obtain ⟨hrow, hlat, hpres, harm, hhom, hrel⟩ := h
  rw [hn.seq] at hrow hhom hrel
  rw [hn.ctl] at harm hhom hrel
  refine ⟨?_, ?_, ?_, ?_, ?_, ?_⟩
  · simpa [hf.seq] using hrow
  · rw [finish_sup, hf.latched, hlat, hn.latched]
  · rw [isPresent, finish_sup]; exact hf.present.trans hpres
  · rw [finish_ctl, hf.ctl, harm]
  · rw [finish_ctl, hf.ctl]; exact hhom
  · rw [finish_ctl, hf.ctl]; exact hrel

/-! ## The response by class -/

theorem Noted.classOf_eq (hn : Noted c s z) (d : Condition) : classOf z d = classOf s d := by
  rw [classOf, classOf, store_of_base hn.base]

theorem Noted.begins (hn : Noted c s z) : beginsRecovery z = beginsRecovery s := by
  simp only [beginsRecovery, hn.seq]

theorem respond_latch (hc : classOf u c = .latch) (hd : c.isDrop = false) : respond c u = fastLatch c (latch c u) := by
  simp [respond, hc, latchDemand, hd]

theorem respond_recover (hc : classOf u c = .recover) : respond c u = recoverOccurrence c u := by simp [respond, hc]

theorem recoverOccurrence_idle (hx : u.ctl.ctx = none) : recoverOccurrence c u = fastRecoverIdle u := by
  simp [recoverOccurrence, hx]

/-- The first condition of a recovery: its record, and the cue's count of recoveries (R145). -/
def recoveryBegun (c : Condition) (u : State) : State :=
  (onCtx (fun y => { y with recoveries := y.recoveries + 1 }) u).onSup fun p => { p with recovery := some ⟨[c], none, 0⟩ }

theorem recoverOccurrence_begins (hx : u.ctl.ctx = some x) (hr : u.sup.recovery = none) (hb : beginsRecovery u = true)
    (h3 : x.recoveries < 3) : recoverOccurrence c u = fastRecoverCue (recoveryBegun c u) := by
  simp [recoverOccurrence, hx, hr, hb, h3, recoveryBegun]

theorem recoverOccurrence_fourth (hx : u.ctl.ctx = some x) (hr : u.sup.recovery = none) (hb : beginsRecovery u = true)
    (h3 : 3 ≤ x.recoveries) : recoverOccurrence c u = fastLatch c (latch c u) := by
  simp [recoverOccurrence, hx, hr, hb, Nat.not_lt.2 h3]

theorem recoverOccurrence_under_way (hx : u.ctl.ctx = some x) (hr : u.sup.recovery = none)
    (hb : beginsRecovery u = false) : recoverOccurrence c u = fastRecoverCue u := by
  simp [recoverOccurrence, hx, hr, hb]

/-- A further condition of a recovery (R145). -/
def recoveryJoined (c : Condition) (u : State) : State :=
  dwellFollow (u.onSup fun p =>
    { p with recovery := p.recovery.map fun r => { r with conds := insertCondition c r.conds } })

theorem recoverOccurrence_joins {r : Recovery} (hx : u.ctl.ctx = some x) (hr : u.sup.recovery = some r) :
    recoverOccurrence c u = fastRecoverCue (recoveryJoined c u) := by
  simp [recoverOccurrence, hx, hr, recoveryJoined]

theorem recoveryJoined_conds (c : Condition) (u : State) :
    (recoveryJoined c u).sup.recovery.map (·.conds) = (u.sup.recovery.map (·.conds)).map (insertCondition c) ∧
    (recoveryJoined c u).sup.recovery.map (·.wait) = u.sup.recovery.map (·.wait) := by
  obtain ⟨h1, h2⟩ := dwellFollow_conds (u.onSup fun p =>
    { p with recovery := p.recovery.map fun r => { r with conds := insertCondition c r.conds } })
  rw [recoveryJoined, h1, h2]
  simp [Function.comp_def]

/-! ## One condition found alone -/

/-- A condition found alone under NOTE leaves the part as it is, but that it is present (R148). -/
theorem AloneFound.noted (h : AloneFound c s raw) (hs : Settled s) (hc : classOf s c = .note) :
    Answers (exec (.loadConversionComplete raw) s) fun t =>
      t.seq = s.seq ∧ t.ctl = s.ctl ∧ t.sup.latched = s.sup.latched ∧ isPresent t c = true ∧ t.gen = s.gen := by
  obtain ⟨z, t, hn, hf, he⟩ := h
  have hz : respond c z = z := by simp [respond, hn.classOf_eq, hc]
  rw [hz] at hf
  have hseq := hf.seq.trans hn.seq
  have hctl := hf.ctl.trans hn.ctl
  have hfin : finish t = t := finish_of hs (by rw [hf.line, hn.line]) hseq (by rw [hctl]) (by rw [hctl])
    (by rw [hf.store, store_of_base hn.base])
  rw [he, answers_next, hfin]
  exact ⟨hseq, hctl, hf.latched.trans hn.latched, hf.present.trans hn.present, hf.gen.trans hn.gen⟩

section demand
variable (h : AloneFound c s raw) (hb : s.inp.brakeReleased = true)
include h hb

theorem AloneFound.latches (ha : s.seq.axis ≠ .unaddressed) (hd : c.isDrop = false) (hc : classOf s c = .latch) :
    Answers (exec (.loadConversionComplete raw) s) (LatchedFor c s) := by
  obtain ⟨z, t, hn, hf, he⟩ := h
  rw [respond_latch ((hn.classOf_eq c).trans hc) hd] at hf
  rw [he, answers_next]
  exact (latchedFor_fastLatch (by rw [hn.seq]; exact ha) (by rw [inp_of_base hn.base]; exact hb)).carried hn hf

section recover
variable (hc : classOf s c = .recover) (h1 : c ≠ .following) (h2 : c = .slack → s.seq.axis = .moving)
include hc

include h1 h2 in
theorem AloneFound.idles (hx : s.ctl.ctx = none) : Answers (exec (.loadConversionComplete raw) s) (Idling c s) := by
  obtain ⟨z, t, hn, hf, he⟩ := h
  rw [respond_recover ((hn.classOf_eq c).trans hc), recoverOccurrence_idle (by rw [hn.ctl]; exact hx)] at hf
  rw [he, answers_next]
  exact (idling_fast (by rw [inp_of_base hn.base]; exact hb) hn.present h1 (by rw [hn.seq]; exact h2)).carried hn hf

include h1 h2 in
/-- A condition found alone begins one of the cue's three recoveries (R145). -/
theorem AloneFound.begins (hx : s.ctl.ctx = some x) (hr : s.sup.recovery = none) (hbeg : beginsRecovery s = true)
    (h3 : x.recoveries < 3) : Answers (exec (.loadConversionComplete raw) s) fun t => RecoversFor s t ∧
      t.sup.recovery = some { conds := [c], dwell := none, wait := 0 } ∧
      t.ctl.ctx = some { x with recoveries := x.recoveries + 1 } := by
  obtain ⟨z, t, hn, hf, he⟩ := h
  have hxz : z.ctl.ctx = some x := by rw [hn.ctl]; exact hx
  have hbz : z.inp.brakeReleased = true := by rw [inp_of_base hn.base]; exact hb
  rw [respond_recover ((hn.classOf_eq c).trans hc),
    recoverOccurrence_begins hxz (hn.recovery_none hr) (hn.begins.trans hbeg) h3] at hf
  have hrec := recovering_fast (u := recoveryBegun c z) hbz
  obtain ⟨f1, f2⟩ := fresh_fastRecoverCue (u := recoveryBegun c z) (c := c) hbz (hn.begins.trans hbeg) rfl hn.present h1
    (fun hs => (congrArg (·.axis) hn.seq).trans (h2 hs))
  rw [he, answers_next]
  refine ⟨hrec.carried hn.seq hn.latched (by rw [← hn.ctl]; rfl) hf, ?_, ?_⟩
  · rw [finish_sup]; exact hf.fresh f1 f2
  · rw [finish_ctl, hf.ctl, hrec.ctl]
    simp [recoveryBegun, onCtx, hxz]

theorem AloneFound.fourth (ha : s.seq.axis ≠ .unaddressed) (hx : s.ctl.ctx = some x) (hr : s.sup.recovery = none)
    (hbeg : beginsRecovery s = true) (h3 : 3 ≤ x.recoveries) :
    Answers (exec (.loadConversionComplete raw) s) (LatchedFor c s) := by
  obtain ⟨z, t, hn, hf, he⟩ := h
  rw [respond_recover ((hn.classOf_eq c).trans hc),
    recoverOccurrence_fourth (by rw [hn.ctl]; exact hx) (hn.recovery_none hr) (hn.begins.trans hbeg) h3] at hf
  rw [he, answers_next]
  exact (latchedFor_fastLatch (by rw [hn.seq]; exact ha) (by rw [inp_of_base hn.base]; exact hb)).carried hn hf

theorem AloneFound.under_way (hx : s.ctl.ctx = some x) (hr : s.sup.recovery = none) (hbeg : beginsRecovery s = false) :
    Answers (exec (.loadConversionComplete raw) s) fun t =>
      RecoversFor s t ∧ t.ctl.ctx = some x ∧ t.sup.recovery = none := by
  obtain ⟨z, t, hn, hf, he⟩ := h
  have hrz := hn.recovery_none hr
  rw [respond_recover ((hn.classOf_eq c).trans hc),
    recoverOccurrence_under_way (by rw [hn.ctl]; exact hx) hrz (hn.begins.trans hbeg)] at hf
  have hrec := recovering_fast (u := z) (by rw [inp_of_base hn.base]; exact hb)
  rw [he, answers_next]
  refine ⟨hrec.carried hn.seq hn.latched (by rw [hn.ctl]) hf, ?_, ?_⟩
  · rw [finish_ctl, hf.ctl, hrec.ctl, hn.ctl, hx]
  · rw [finish_sup]
    refine hf.recovery_none ?_
    have := hrec.conds
    rw [hrz] at this
    simpa using this

/-- A condition found alone within a recovery joins it (R145). -/
theorem AloneFound.joins {r : Recovery} (hx : s.ctl.ctx = some x) (hr : s.sup.recovery = some r) :
    Answers (exec (.loadConversionComplete raw) s) fun t => RecoversFor s t ∧ t.ctl.ctx = some x ∧
      t.sup.recovery.map (·.conds) = some (insertCondition c r.conds) ∧ t.sup.recovery.map (·.wait) = some r.wait := by
  obtain ⟨z, t, hn, hf, he⟩ := h
  have hconds := hn.conds
  have hwait := hn.wait
  rw [hr] at hconds hwait
  obtain ⟨q, hq, -⟩ := Option.map_eq_some_iff.1 hconds
  rw [respond_recover ((hn.classOf_eq c).trans hc), recoverOccurrence_joins (by rw [hn.ctl]; exact hx) hq] at hf
  have hrec := recovering_fast (u := recoveryJoined c z) (by
    show z.inp.brakeReleased = true
    rw [inp_of_base hn.base]; exact hb)
  obtain ⟨j1, j2⟩ := recoveryJoined_conds c z
  rw [he, answers_next]
  refine ⟨hrec.carried hn.seq hn.latched (by rw [← hn.ctl]; rfl) hf, ?_, ?_, ?_⟩
  · rw [finish_ctl, hf.ctl, hrec.ctl]
    exact (congrArg (·.ctx) hn.ctl).trans hx
  · rw [finish_sup, hf.conds, hrec.conds, j1, hconds]; rfl
  · rw [finish_sup, hf.wait, hrec.wait, j2, hwait]; rfl

end recover

end demand

end alone

end Sys2Proof.Machine


/-! PROOFS. The clauses of a load conversion (O54). -/

namespace Sys2Proof.Machine

section conversion
variable {s u v w z t : State} {c : Condition} {x : CueContext} {raw : BitVec 12}

/-! ## The landing -/

/-- What the landing test of R149 asks of a cue. -/
def Lands (s : State) (x : CueContext) : Prop :=
  x.phase = .running ∧ x.record.cue.landing = true ∧
    distance s.gen.s.toNat (x.record.cue.target * 1000000) ≤ s.store.live.landingBand * 1000000

theorem landingTest_of (hx : s.ctl.ctx = some x) (h : Lands s x) : landingTest s = true := by
  obtain ⟨hp, hl, hd⟩ := h
  simp [landingTest, hx, ownLanding, mmToNm, hp, hl, hd]

theorem landingTest_false (h : ∀ x ∈ s.ctl.ctx, ¬Lands s x) : landingTest s = false := by
  rw [landingTest]
  cases hx : s.ctl.ctx with
  | none => rfl
  | some x =>
    rw [Bool.eq_false_iff]
    intro ht
    simp only [ownLanding, mmToNm, Bool.and_eq_true, decide_eq_true_eq] at ht
    obtain ⟨hp, hl, hd⟩ := ht
    exact h x hx ⟨hp, hl, of_decide_eq_true hd⟩

theorem conversion_lands (hh : s.held = none) (ha : s.seq.axis = .moving) (hc : s.meas.converting = true)
    (hx : s.ctl.ctx = some x) (hlands : Lands s x) (h0 : raw ≠ 0) (h1 : raw ≠ 4095) (hl : s.meas.window.length ≤ 4)
    (hcls : s.store.live.clsSlack ≠ .off)
    (hslack : Int.tdiv (windowWith s raw).sum (windowWith s raw).length < s.store.live.slack)
    (hover : Int.tdiv (windowWith s raw).sum (windowWith s raw).length ≤ s.store.live.overload) :
    Answers (exec (.loadConversionComplete raw) s) fun t =>
      t.seq.axis = .stopping ∧ t.seq.stopKind = .controlled ∧ t.seq.dest = .parked ∧
      t.ctl = { s.ctl with ctx := some { x with phase := .ending, endReason := some .landed } } ∧
      t.sup.latched = s.sup.latched ∧ t.peers = s.peers ∧ t.guard = s.guard ∧ path t.gen = path s.gen ∧
      base t = base s := by
  have hau : s.seq.axis ≠ .unaddressed := by rw [ha]; decide
  obtain ⟨z, t, hn, hf, he⟩ := slack_reached hh hau hc h0 h1 hl hslack hover ha hcls
  have hz : slackResponse s z = controlledEnd .landed z := if_pos (landingTest_of hx hlands)
  obtain ⟨hphase, -, -⟩ := hlands
  obtain ⟨⟨a1, a2, a3⟩, hctl, hlat, hpeers, hguard, hbase, -, hpath, -⟩ :=
    controlledEnd_stopsFor (s := z) (o := .landed) (hn.ctl ▸ hx) (by rw [hphase]; decide) (by rw [hn.seq]; exact ha)
  rw [hz] at hf
  rw [he, answers_next]
  refine ⟨?_, ?_, ?_, ?_, ?_, ?_, ?_, ?_, ?_⟩
  · rw [finish_seq, restFollow_axis, hf.seq, a1]
  · rw [finish_seq, restFollow_stopKind, hf.seq, a2]
  · rw [finish_seq, restFollow_dest, hf.seq, a3]
  · rw [finish_ctl, hf.ctl, hctl, hn.ctl]
  · rw [finish_sup, hf.latched, hlat, hn.latched]
  · rw [finish_peers, hf.peers, hpeers, hn.peers]
  · rw [finish_guard, hf.guard, hguard, hn.guard]
  · rw [finish_path, hf.gen, hpath, hn.gen]
  · rw [finish_base, hf.base, hbase, hn.base]

/-! ## The sample taken -/

theorem judged_base (u : State) : base (finish (judgeLoad u)) = base u := by rw [finish_base, judgeLoad_base]

theorem judged_kept : enabling (finish (judgeLoad (sampled raw s))).ctl = enabling s.ctl ∧
    bounds (finish (judgeLoad (sampled raw s))).guard = bounds s.guard := by
  have h : still (finish (judgeLoad (sampled raw s))) = still (sampled raw s) := by rw [finish_still, judgeLoad_still]
  exact ⟨congrArg (·.2.1) h, congrArg (·.2.2.1) h⟩

/-- Settles O54. -/
theorem loadConversionFiltered : Obligations.LoadConversionFiltered := by
  intro s raw hs hh ha
  refine ⟨fun hc => ?_, fun hc => ⟨fun hraw => ?_, fun h0 h1 hl => ?_, ?_, ?_⟩⟩
  · exact if_neg (by simp [hc])
  · have hj := judged_senses (s := s) (raw := raw)
    rw [sampled_invalid hraw] at hj
    simp only [senses, Prod.mk.injEq] at hj
    obtain ⟨-, -, -, -, -, -, -, h1, h2, h3, h4⟩ := hj
    rw [exec_conversion hh ha hc, answers_next]
    exact ⟨h1, h2, h3, h4, judged_base _⟩
  · have hj := judged_senses (s := s) (raw := raw)
    rw [sampled_valid h0 h1 hl] at hj
    simp only [senses, Prod.mk.injEq] at hj
    obtain ⟨k1, -, k3, -, -, k6, -, k8, k9, k10, k11⟩ := hj
    obtain ⟨hen, hbo⟩ := judged_kept (s := s) (raw := raw)
    rw [exec_conversion hh ha hc, answers_next]
    exact ⟨k8, k9, k10, k11, judged_base _, k1, k3, k6, hen, hbo⟩
  · intro x hx hp hland hmov hd h0 h1 hl hcls hslack hover
    exact conversion_lands hh hmov hc hx ⟨hp, hland, hd⟩ h0 h1 hl hcls hslack hover
  · intro c hcm hpres hl live mean lands alone halone latched recovers
    have hfound : AloneFound c s raw ∧ c.isDrop = false ∧ c ≠ .following ∧ (c = .slack → s.seq.axis = .moving) := by
      simp only [List.mem_cons, List.not_mem_nil, or_false] at hcm
      rcases hcm with rfl | rfl | rfl
      · obtain ⟨h0, h1, hover, hslack⟩ := halone
        exact ⟨overload_found hh ha hc hpres h0 h1 hl hover hslack, rfl, by decide, fun h => nomatch h⟩
      · obtain ⟨h0, h1, hslack, hover, hmov, hcls, hno⟩ := halone
        exact ⟨slack_found hh ha hc hpres h0 h1 hl hslack hover hmov hcls (landingTest_false hno), rfl, by decide,
          fun _ => hmov⟩
      · obtain ⟨hraw, hrun, hfil⟩ := halone
        exact ⟨loadSensor_found hh ha hc hpres hraw hrun hfil, rfl, by decide, fun h => nomatch h⟩
    obtain ⟨hfound, hdrop, hfol, hsl⟩ := hfound
    refine ⟨hfound.noted hs, fun hb => ⟨hfound.latches hb ha hdrop, fun hcl => ⟨fun hx => ?_, fun x hx => ⟨?_, ?_, ?_⟩⟩⟩⟩
    · exact (hfound.idles hb hcl hfol hsl hx).imp fun t h => ⟨h.row, h.latched, h.present, h.armed, h.homing, h.releasing⟩
    · exact fun hr hbeg => ⟨hfound.begins hb hcl hfol hsl hx hr hbeg, hfound.fourth hb hcl ha hx hr hbeg⟩
    · exact fun hr hbeg => hfound.under_way hb hcl hx hr hbeg
    · exact fun r hr => hfound.joins hb hcl hx hr

end conversion

end Sys2Proof.Machine
